-- ==== Sys2Proof/Word.lean ====
section
/-!
DEFINITION. The word types of the PQN-4096 node and the sparse table type that holds indexed state.
-/

namespace Sys2Proof

/-- A byte of host memory, of a table or of a frame (R8). -/
abbrev Byte := BitVec 8

/-- A 16-byte record: a calibrated hit record, a marker, or a wisp (R129, R143). -/
abbrev Rec128 := BitVec 128

/-- A raw hit record as it travels from an FE die to a hub (R101). -/
abbrev Rhr := BitVec 96

/-- One line of GDDR7, 128 bytes, byte 0 in the low bits (R199, R201). -/
abbrev Line := BitVec 1024

/-- A sparse table: pairs of an index and a value, indices strictly rising. An index that the table does not list
holds the default that the reader names, and no listed value equals it, so equal tables are equal data. -/
abbrev Tbl (α : Type) := List (Nat × α)

namespace Tbl

variable {α : Type}

/-- The value at an index; `d` is what an unlisted index holds. -/
def get (d : α) : Tbl α → Nat → α
  | [], _ => d
  | (k, v) :: t, i => if i = k then v else get d t i

/-- Put a pair at its place, dropping an older pair of the same index. -/
def put (i : Nat) (v : α) : Tbl α → Tbl α
  | [] => [(i, v)]
  | (k, w) :: t =>
    if i < k then (i, v) :: (k, w) :: t
    else if i = k then (i, v) :: t
    else (k, w) :: put i v t

/-- Drop the pair of an index. -/
def del (i : Nat) : Tbl α → Tbl α
  | [] => []
  | (k, w) :: t => if i = k then del i t else (k, w) :: del i t

/-- Write a value; writing the default removes the entry. -/
def set [DecidableEq α] (d : α) (t : Tbl α) (i : Nat) (v : α) : Tbl α :=
  if v = d then del i t else put i v t

/-- The canonical form: indices strictly rising and no listed default. -/
def wf [DecidableEq α] (d : α) : Tbl α → Bool
  | [] => true
  | (_, v) :: [] => decide (v ≠ d)
  | (k, v) :: (k', v') :: t => decide (k < k') && decide (v ≠ d) && wf d ((k', v') :: t)

end Tbl

end Sys2Proof
end

