-- ==== Sys2Proof/Kinds.lean ====
section
/-!
DEFINITION. The fixed sets of names that commands and state share: hubs, modes, power states, command sources, status
codes, link messages, local errors.
-/

namespace Sys2Proof

/-- The two hub dies (R1). -/
inductive Hub where
  | a | b
  deriving DecidableEq, Repr

/-- Hub A is 0 and hub B is 1, also as the number of a region link (R105, R193). -/
def Hub.idx : Hub → Nat
  | .a => 0
  | .b => 1

/-- The partner of a hub. -/
def Hub.other : Hub → Hub
  | .a => .b
  | .b => .a

/-- The twelve modes (R6). -/
inductive Mode where
  | seed | selftest | standby | calibrate | triggered | streaming | dual | hub | inject | lightcal | recovery | safe
  deriving DecidableEq, Repr

/-- Mode numbers, SEED = 1 to SAFE = 12 (R184). -/
def Mode.num : Mode → Nat
  | .seed => 1 | .selftest => 2 | .standby => 3 | .calibrate => 4 | .triggered => 5 | .streaming => 6
  | .dual => 7 | .hub => 8 | .inject => 9 | .lightcal => 10 | .recovery => 11 | .safe => 12

/-- The mode of a number 1 to 12 (R184, R186). -/
def Mode.ofNum? (n : Nat) : Option Mode :=
  [Mode.seed, .selftest, .standby, .calibrate, .triggered, .streaming, .dual, .hub, .inject, .lightcal, .recovery,
   .safe].find? (fun m => decide (m.num = n))

/-- The five power states (R6). -/
inductive PState where
  | active | hush | rest | fallow | frost
  deriving DecidableEq, Repr

/-- Power states as POWER SUB numbers them (R186). -/
def PState.num : PState → Nat
  | .active => 0 | .hush => 1 | .rest => 2 | .fallow => 3 | .frost => 4

/-- Where a command runs: a command ring (R194) or the mode script in progress (R185). -/
inductive Src where
  | ring (k : Fin 4)
  | script
  deriving DecidableEq, Repr

/-- Completion status codes (R197). -/
inductive Status where
  | ok | warn | timeout | illegal | conflict | nospace | notready | busy | denied | aborted | fault
  deriving DecidableEq, Repr

/-- The code of a status (R197). -/
def Status.code : Status → Nat
  | .ok => 0x00 | .warn => 0x01 | .timeout => 0x02 | .illegal => 0x10 | .conflict => 0x11 | .nospace => 0x12
  | .notready => 0x13 | .busy => 0x14 | .denied => 0x15 | .aborted => 0x16 | .fault => 0x1F

/-- Completion status of a TLP that answers a read (R291). -/
inductive CplStatus where
  | success | unsupported | abort
  deriving DecidableEq, Repr

/-- The classes of local error (R362). -/
inductive ErrClass where
  | f | r | p
  deriving DecidableEq, Repr

/-- The named local errors of a hub (R362). -/
inductive LocalErr where
  | gatemiss | memlate | stepskew | rlink (region : Fin 8) | balerfail | clkloss | memcfg | chkfail | memwrite
  | mempoison | tspoison | wordpoison | mismatch | dirfix | fifo
  | pciedown | portdown (port : Fin 4)
  deriving DecidableEq, Repr

/-- Class of a local error (R362). -/
def LocalErr.cls : LocalErr → ErrClass
  | .gatemiss | .memlate | .stepskew | .rlink _ | .balerfail | .clkloss | .memcfg | .chkfail | .memwrite => .f
  | .mempoison | .tspoison | .wordpoison | .mismatch | .dirfix | .fifo => .r
  | .pciedown | .portdown _ => .p

/-- The crossing FIFOs of a hub (R382). -/
inductive Fifo where
  | ingress (region : Fin 8) | tcmd | memReturn | memWrite | pcieRx | pcieTx
  | portRx (port : Fin 4) | portTx (port : Fin 4) | stileRx | mailbox | events
  deriving DecidableEq, Repr

/-- What reads the scrubber's target (R217, R218): a GDDR7 line, or an SRAM word of one of three uses. -/
inductive ScrubTarget where
  | line
  | sramTable | sramWorking | sramFree
  deriving DecidableEq, Repr

/-- A stage that receives words with their parity (R28): where the held copy stands as a record, which word of it (2, 1 or 0, R101) the
stage reads. -/
inductive Stage where
  /-- The head of a block FIFO, read by the region arbiter (R93, R94). -/
  | blockFifo (blk : Fin 64) (word : Fin 3)
  /-- The record at the read position of a region link, read by the formatter (R98). -/
  | derandomiser (die : Fin 8) (link : Hub) (word : Fin 3)
  /-- The head of a region's ingress FIFO, read by the sorter (R117). -/
  | ingress (h : Hub) (region : Fin 8) (word : Fin 3)
  /-- The cluster memory of a hub (R18). -/
  | cluster (h : Hub) (n : Fin 16)
  /-- Any other stage of a hub, by a number of its own; the word belongs to no record that the model holds. -/
  | hub (h : Hub) (n : Nat)
  deriving DecidableEq, Repr

/-- A source that an opening stops (R399). -/
inductive Compliance where
  | source | excOpen
  deriving DecidableEq, Repr

/-- A frame of a port (R314): the fields of its start block, its payload, and the CRC of its end block. -/
structure PortFrame where
  start   : BitVec 56
  payload : List Byte
  crc     : BitVec 32
  deriving DecidableEq, Repr

/-- A MAC stamp (R339): the REFCLK period of the slice in progress, and the place in it in 1/256 of the period. -/
structure Stamp where
  period : BitVec 9
  frac   : BitVec 8
  deriving DecidableEq, Repr

/-- What each hub's self-test found: each pattern of R223 that a checker judged wrongly, as the checker's identity and the pattern's place
in its table row, and the densities of its
two GDDR7 devices in Gb (R198). -/
structure SelftestResult where
  failed : List (Nat × Nat)
  dev0   : Nat
  dev1   : Nat
  deriving DecidableEq, Repr

/-- What a hub's flash and OTP hold when the node is powered, written from outside while it was not: the images of the two
slots, and the OTP rows from row 0 on (R459, R465). -/
structure Fitted where
  slotA : List Byte
  slotB : List Byte
  rows  : List (BitVec 32)
  deriving DecidableEq, Repr

/-- The instructions of the test port (R481): those that R481 names, and those that IEEE 1149.1 demands of every die. -/
inductive JtagOp where
  | bypass | idcode | sample | preload | extest | intest | clamp | highz
  deriving DecidableEq, Repr

/-- Instructions accepted only while PWRGD is high and both hubs are in SEED (R481). -/
def JtagOp.drives : JtagOp → Bool
  | .extest | .intest | .clamp | .highz => true
  | _ => false

end Sys2Proof
end

