-- ==== Sys2Proof/Syntax.lean ====
section
/-!
DEFINITION. The commands of the block: one constructor for each row of spec/opcode_table.json, in the table's order, with the
data that comes from outside the node as operands.
-/

namespace Sys2Proof

/-- One operation or event of the node (opcode_table.json).

Operands that recur: `ch` a channel (R2); `die` an FE die; `blk` a block, region × 8 + block; `link` the hub at a region link's
far end; `tick` the coarse tick of the event within the slice in progress (R3); `code` a raw TDC code (R56); `peak` a held peak
in microvolts above baseline (R88); `h` a hub; `g` a gleaner (R125); `src` the ring or script that a command runs from; `pf`
whether the read fails its parity check after replay (R28). -/
inductive Instr where
  | powerOnReset (refclk : Bool) (fitA fitB : Option Fitted)
  | seedEnd
  | selftestFinished (a b : SelftestResult)
  | tcmdNoLock (pair : Fin 2)
  | pwrgdFall
  | railFault (die : Fin 10) (rail : Fin 7)
  | trip (die : Fin 10) (sensors : BitVec 4)
  | tripRestart
  | evaluation (quarters : List Int) (measA measB : Nat)
  | loopFault (h : Hub)
  | refLost (tick : BitVec 12)
  | refBack
  | parityReplay (stage : Stage) (err : BitVec 33)
  | leadingEdge (ch : Fin 4096) (tick : BitVec 12) (code : Fin 513) (pf : Bool)
  | trailingEdge (ch : Fin 4096) (tick : BitVec 12) (code : Fin 513) (peak : Int) (pf : Bool)
  | hitLengthLimit (ch : Fin 4096) (tick : BitVec 12) (peak : Int)
  | rangeSwitch (ch : Fin 4096) (tick : BitVec 12)
  | peakFoundArmed (ch : Fin 4096) (tick : BitVec 12)
  | peakFound (ch : Fin 4096) (tick : BitVec 12) (peak : Int)
  | resetEnd (ch : Fin 4096) (tick : BitVec 12)
  | rearm (ch : Fin 4096) (tick : BitVec 12)
  | settleEnd (ch : Fin 4096) (tick : BitVec 12)
  | controlLaneReceive (die : Fin 8) (link : Hub)
  | sliceBoundary
  | epochBoundary
  | settingSweep (die : Fin 8) (upsets : List (Nat × Fin 3 × BitVec 64))
  | blankRise (sample : BitVec 9) (late : BitVec 8)
  | maskStart (die : Fin 8) (tick : BitVec 12)
  | blankFall (sample : BitVec 9) (late : BitVec 8)
  | maskEnd (die : Fin 8) (tick : BitVec 12)
  | injectionStep (die : Fin 8) (tick : BitVec 12)
  | mapArrival (ch : Fin 4096) (seed : Bool)
  | histogramFull (ch : Fin 4096)
  | rebuildDone (ch : Fin 4096)
  | ditherEntry (ch : Fin 4096) (tick : BitVec 12) (code : Fin 513)
  | ditherEnd (ch : Fin 4096) (tick : BitVec 12)
  | tinEdge (pin : Fin 2) (falling : Bool) (cycle : Nat) (code : Fin 513)
  | tallyStamp (unit : Fin 8) (stamp : Nat) (code : Fin 513)
  | tallyGateOpen (unit : Fin 8) (stamp : Nat)
  | tallyGateClose (unit : Fin 8)
  | tallyResult (unit : Fin 8) (tick : BitVec 12)
  | differenceResult (unit : Fin 8)
  | grant (blk : Fin 64) (tick : BitVec 12)
  | holdSlotFreed (blk : Fin 64) (slice : Fin 17) (tick : BitVec 12)
  | conversionComplete (blk : Fin 64) (slice : Fin 17) (tick : BitVec 12) (err offErr : Int)
  | referencePair (blk : Fin 64) (tick : BitVec 12) (offRaw : BitVec 12)
  | rotationStep (blk : Fin 64)
  | fifoRst (blk : Fin 64) (tick : BitVec 12)
  | derandomiserWrite (die : Fin 8)
  | sliceMarkerDue (die : Fin 8)
  | drRst (die : Fin 8) (tick : BitVec 12)
  | lagRelease (die : Fin 8) (link : Hub)
  | frameSend (die : Fin 8) (link : Hub)
  | alignmentMarker (die : Fin 8) (link : Hub) (lanes : List (BitVec 2)) (seqs : List (BitVec 16)) (skew : Nat)
  | frameReceive (die : Fin 8) (link : Hub) (err : BitVec 4096) (badWords : List (Nat × Fin 3))
  | ack (die : Fin 8) (link : Hub) (seq : BitVec 12)
  | nak (die : Fin 8) (link : Hub) (seq : BitVec 12)
  | ackTimeout (die : Fin 8) (link : Hub)
  | alignmentLoss (die : Fin 8) (link : Hub)
  | markerTimeout (die : Fin 8) (link : Hub)
  | retrainingDone (die : Fin 8) (link : Hub)
  | retrainTimeout (die : Fin 8) (link : Hub)
  | pause (die : Fin 8) (link : Hub)
  | resume (die : Fin 8) (link : Hub)
  | stepBoundary (tick : BitVec 12)
  | sheafWatchdog (g : Fin 128)
  | sliceRelease
  | tableReloadDone (g : Fin 128)
  | add (g : Fin 128)
  | sub (g : Fin 128)
  | and (g : Fin 128)
  | or (g : Fin 128)
  | xor (g : Fin 128)
  | shl (g : Fin 128)
  | shr (g : Fin 128)
  | sra (g : Fin 128)
  | mul (g : Fin 128)
  | min (g : Fin 128)
  | max (g : Fin 128)
  | slt (g : Fin 128)
  | sltu (g : Fin 128)
  | beq (g : Fin 128)
  | bne (g : Fin 128)
  | addi (g : Fin 128)
  | andi (g : Fin 128)
  | ori (g : Fin 128)
  | xori (g : Fin 128)
  | shli (g : Fin 128)
  | shri (g : Fin 128)
  | srai (g : Fin 128)
  | ldi (g : Fin 128)
  | lhi (g : Fin 128)
  | blt (g : Fin 128)
  | bge (g : Fin 128)
  | jal (g : Fin 128)
  | jr (g : Fin 128)
  | fex (g : Fin 128)
  | fexs (g : Fin 128)
  | fins (g : Fin 128)
  | wfex (g : Fin 128)
  | wfins (g : Fin 128)
  | wmov (g : Fin 128)
  | lut (g : Fin 128) (pf : Bool)
  | wlut (g : Fin 128) (pf : Bool)
  | curve (g : Fin 128) (pf : Bool)
  | tadd (g : Fin 128)
  | tsub (g : Fin 128)
  | rnext (g : Fin 128) (bad : BitVec 3)
  | rctx (g : Fin 128) (bad : BitVec 3)
  | remit (g : Fin 128)
  | rdrop (g : Fin 128)
  | rflag (g : Fin 128)
  | pemit (g : Fin 128)
  | ptest (g : Fin 128)
  | gain (g : Fin 128)
  | take (g : Fin 128)
  | done (g : Fin 128)
  | sget (g : Fin 128)
  | ctot (g : Fin 128)
  | ld (g : Fin 128) (pf : Bool)
  | st (g : Fin 128)
  | wld (g : Fin 128) (pf : Bool)
  | wst (g : Fin 128)
  | crc (g : Fin 128)
  | wcrc (g : Fin 128)
  | fenceInstruction (g : Fin 128)
  | waitev (g : Fin 128)
  | waitevTimeout (g : Fin 128)
  | mail (g : Fin 128)
  | mrecv (g : Fin 128)
  | nopInstruction (g : Fin 128)
  | nopCommand (src : Src)
  | load (src : Src) (image : List Byte)
  | table (src : Src) (block : List Byte)
  | mode (src : Src)
  | powerActive (src : Src) (tick : BitVec 12)
  | powerHush (src : Src)
  | powerRest (src : Src)
  | powerFallow (src : Src)
  | powerFrost (src : Src)
  | incr (src : Src)
  | timeStep (src : Src)
  | tout (src : Src) (block : BitVec 256)
  | tallyFrequency (src : Src)
  | tallyDifference (src : Src)
  | stopTallyUnit (src : Src)
  | injectionStrobe (src : Src)
  | softwareTrigger (src : Src)
  | flush (src : Src) (taken : Nat)
  | conditionEnableMask (src : Src)
  | queryBlocks (src : Src)
  | queryIngress (src : Src)
  | queryMemory (src : Src)
  | queryTrigger (src : Src)
  | queryBalers (src : Src)
  | queryPcie (src : Src)
  | queryFodafort (src : Src)
  | queryTime (src : Src)
  | queryRedund (src : Src)
  | queryEnviron (src : Src)
  | queryLoops (src : Src)
  | queryCalq (src : Src)
  | queryTable (src : Src)
  | queryTdcmap (src : Src)
  | queryTally (src : Src)
  | querySettings (src : Src)
  | ringRead (src : Src)
  | readlog (src : Src)
  | setwriteMonitor (src : Src) (block : List Byte)
  | setwriteLoop (src : Src) (block : List Byte)
  | setwriteTimeService (src : Src) (block : List Byte)
  | setwriteLoopaLoopb (src : Src) (block : List Byte)
  | setwriteNodeWord (src : Src) (block : List Byte)
  | setread (src : Src)
  | reply (src : Src)
  | monrun (src : Src)
  | stage (src : Src) (image : List Byte) (failed : BitVec 2)
  | verify (src : Src) (failed : BitVec 2)
  | commit (src : Src) (failed : BitVec 2)
  | activate (src : Src)
  | otp (src : Src) (block : List Byte) (badRow : Option (Fin 64))
  | fenceCommand (src : Src)
  | waitEpoch (src : Src)
  | waitNodeTime (src : Src)
  | waitEvent (src : Src)
  | waitTimeout (src : Src)
  | startAcquisition
  | stopAcquisition
  | retrain
  | returnToRefclk
  | epochRestart
  | liftFence
  | progevt
  | commandFetch (ring : Fin 4) (word : BitVec 128) (good : Bool)
  | sqtail (h : Hub) (ring : Fin 4) (value : BitVec 16)
  | cqhead (h : Hub) (ring : Fin 4) (value : BitVec 16)
  | commandRingEnable (h : Hub) (ring : Fin 4) (value : BitVec 32)
  | dataRingEnable (h : Hub) (ring : Fin 8) (value : BitVec 32)
  | dcons (h : Hub) (ring : Fin 8) (value : BitVec 32)
  | econs (h : Hub) (ring : Fin 8) (value : BitVec 16)
  | registerWrite (h : Hub) (off : BitVec 17) (value : BitVec 64) (wide full : Bool)
  | causeClear (h : Hub) (value : BitVec 32)
  | seedwrRead (h : Hub)
  | stepLoRead (h : Hub) (wide : Bool)
  | go (h : Hub)
  | rd (h : Hub) (err : Line)
  | configurationRequest (h : Hub) (write : Bool) (reg : BitVec 12) (value : BitVec 32) (early : Bool)
  | perst (h : Hub) (hot : Bool)
  | pciedown (h : Hub) (perstFell : Bool)
  | completionTlp (src : Src) (bytes : Nat) (status : CplStatus) (ep ecrcBad : Bool)
  | completionTimeout (src : Src)
  | pcieAck (step : Nat)
  | partDelivery
  | serviceDelivery
  | imodExpiry (ring : Fin 8)
  | tcmdUnit (unit : BitVec 10) (tick : BitVec 12)
  | tcmdsw (pair : Fin 2) (unlocked : Bool)
  | streamEntry
  | captureStart
  | partComplete
  | jobEnd (baler : Fin 4) (stream : List Byte) (sound : Bool)
  | lineFetch (h : Hub) (line : Nat) (errs : List Line)
  | mergeWrite (line off : Nat) (bytes : List Byte)
  | mergeEntryIdle (line : Nat)
  | scrubRead (h : Hub) (target : ScrubTarget) (addr : Nat) (errs : List Line)
  | trainingWord (h : Hub) (lane : Fin 16) (word : BitVec 56) (converged : Bool)
  | trainingTimeout (h : Hub) (port : Fin 4)
  | backoffExpiry (h : Hub) (port : Fin 4)
  | fodafortMarker (h : Hub) (port : Fin 4) (lanes : List (BitVec 2)) (seqs : List (BitVec 16)) (skewPs : Nat)
  | wake (h : Hub) (port : Fin 4)
  | wakeTimeout (h : Hub) (port : Fin 4)
  | dataFrame (h : Hub) (port : Fin 4) (frame : PortFrame)
  | primFrame (h : Hub) (port : Fin 4) (frame : PortFrame)
  | fodafortAck (h : Hub) (port : Fin 4) (seq : BitVec 16)
  | fodafortPause (h : Hub) (port : Fin 4)
  | fodafortResume (h : Hub) (port : Fin 4)
  | quiet (h : Hub) (port : Fin 4)
  | pauseExpiry (port : Fin 4)
  | mergePauseRepeat (port : Fin 4)
  | ffnoack (port : Fin 4)
  | mergeTimeout (trigno epoch : BitVec 32)
  | syncInterval (macs : List Stamp)
  | announceInterval
  | sync (h : Hub) (port : Fin 4) (frame : PortFrame) (mac2 : Stamp) (j : Fin 77) (skew : Int) (mac3 : Stamp)
  | dreq (h : Hub) (port : Fin 4) (frame : PortFrame) (mac4 : Stamp) (j : Fin 77) (skew : Int)
  | dresp (h : Hub) (port : Fin 4) (frame : PortFrame)
  | announce (h : Hub) (port : Fin 4) (frame : PortFrame)
  | exchangeTimeout (port : Fin 4)
  | toutPulse (k : Fin 4) (tick : BitVec 12)
  | toutPulseEnd (k : Fin 4) (tick : BitVec 12)
  | hubSilent (h : Hub)
  | stepskew (h : Hub)
  | digest (step : BitVec 16) (crc : BitVec 32)
  | localError (h : Hub) (err : LocalErr)
  | replayRelease
  | driveHeld
  | stileLost (silent : Bool)
  | rejoin (h : Hub) (failedPhase : Option Nat)
  | fifoPointerMismatch (h : Hub) (fifo : Fifo) (lost : Nat)
  | fifoResetEnd (h : Hub) (fifo : Fifo)
  | regularPass
  | monitorPhaseEnd (samples : List (Fin 5 × Int)) (offline : List Int) (excOpen : Bool) (tick : BitVec 12)
  | injectedTrigger (trig : BitVec 4)
  | blankPauseEnd
  | complianceTrip (which : Compliance) (tick : BitVec 12)
  | lcsCrossing (n : Fin 4) (lcs : Nat)
  | loopPeriod (n : Fin 8) (lcsSum onCycles cycles : Nat) (over400 : Bool)
  | pwmPeriod (n : Fin 4)
  | pwmOnEnd (n : Fin 4)
  | gateWindowOpen (n : Fin 4)
  | gateWindowClose (n : Fin 4)
  | lampNtc (n : Fin 4)
  | event
  | logBatch
  | logSupp
  | haywardPoll (kind index : Nat) (value : Int)
  | fwWdog
  | flashFail (h : Hub)
  | jtagInstruction (die : Fin 10) (op : JtagOp)
  | xtalStop
  | clkLoss (h : Hub)
  | refreshCommand (h : Hub)
  | lineWriteDone (line : Nat) (errs : List Line)
  | pcieLinkUp (h : Hub) (speed width : Nat)
  | tcmdLock (pair : Fin 2)
  | ldgHoldEnd (n : Fin 4) (lcs : Nat)
  | haywardUp
  | flashDone
  | testLogicReset
  deriving DecidableEq, Repr

end Sys2Proof
end

