-- ==== Sys2Proof/Decode.lean ====
section
/-!
DEFINITION. The commands that a word spells by the bits of spec/opcode_table.json. The table gives no row any bits: its rows
are events and operations of a block, so no word spells one.
-/

namespace Sys2Proof

/-- The command that a word of `nbits` bits spells: none for every word, since no row of the table gives bits. -/
def decodeTableWord (_nbits _w : Nat) : Option Instr := none

end Sys2Proof
end

