-- ==== Sys2Proof/Config.lean ====
section
/-!
DEFINITION. The values that the manual leaves open, as constants without a body, so that a statement holds for every value of
them. Each is named in a row of the assumption log.
-/

namespace Sys2Proof.Config

/-- A fresh free value: the n-th value that the node takes where the manual states none. -/
opaque freeNat : Nat → Nat

/-- Which free page of the sheaf pool the hub takes, out of the pages now free (R123 gives no order). -/
opaque freePagePick : List Nat → Nat

/-- The known codes of the four on-die reference levels of a block ADC (R90 gives no codes). -/
opaque refLevelCode : Nat → Nat

/-- The node-program public key whose SHA-384 digest is PKEY (R171 names the key only by its hash). -/
opaque programKey : BitVec 384 → BitVec 768

/-- The manufacturer identity in the test port's IDCODE (R481: given by the BSDL file). -/
opaque manufacturerId : BitVec 11

/-- The state a GDDR7 line holds before any line of it has been written (R220 sweeps only in SELFTEST). -/
opaque unsweptLine : Nat → BitVec 1024

/-- Bits [63:32] of word 0 of a curve entry that has four bytes (R149, R158: such an entry has no such bits). -/
opaque narrowKnot : Nat → BitVec 32

/-- The code of an alternative that a rule names and does not number, by the list and the place in it: list 0 port states beside
those of R306 (off, back-off), 1 baler states (R271), 2 loop states (R430), 3 causes of LFAULT (R420), 4 causes of a switch-over (R383),
5 the byte of a run-time claim by its TYPE, INDEX and USER (R191). -/
opaque openCode : Nat → Nat → Nat

/-- Whether a figure that is no whole number of its unit is rounded up, where no rule says how it rounds: by the place that
rounds, the numerator and the denominator. Places: 0 times in 2^-16 ns (R339), 1 offset and delay (R342), 2 means of a difference run (R81),
3 its rms (R81), 4 its fit residual (R83), 5 RESID of a gate (R79), 6 TDC residual nonlinearity (R63), 7 ADC mismatch (R91, R391), 8 loop
current (R409), 9 diode temperature (R393), 10 mean of LCSn (R416). -/
opaque roundsUp : Nat → Int → Nat → Bool

/-- The request that a receiver makes of the partner's transmitter in EQ, by its lane and the step (R306: the one that raises its smallest
eye height). -/
opaque eqRequest : Nat → Nat → Nat

/-- Byte offsets in configuration space of the capabilities that R272 names and no rule places: 0 power management, 1 MSI-X,
2 PCI Express, 3 L1 PM substates. -/
opaque capOffset : Fin 4 → Nat

end Sys2Proof.Config
end

