-- ==== Sys2Proof/Machine/FeTypes.lean ====
section
/-!
DEFINITION. The state of the FE dies: channel cells, TDC maps and histograms, blocks, regions and the die side and hub side of
the region links.
-/

namespace Sys2Proof.Machine

/-- A setting word in triplicated storage; every use reads the voted value (R37). -/
structure Trip (w : Nat) where
  c0 : BitVec w
  c1 : BitVec w
  c2 : BitVec w
  deriving DecidableEq, Repr

/-- Where a cell is in the course of a hit (R42 to R46, R84). -/
inductive CellPhase where
  /-- Accepts leading edges (subject to mask and settling). -/
  | armed
  /-- A hit in progress, measured in the gain it started with. -/
  | hit
  /-- The range comparator was sampled true; the stop is masked and the cell measures in LG (R44). -/
  | switched
  /-- As `switched`, with the peak-found comparator armed. -/
  | peakArmed
  /-- The peak is captured and the reset switch is closed (step 3 of R42). -/
  | reset
  /-- Re-arm settling (step 5 of R42). -/
  | settling
  /-- Re-arm done, all four hold slots occupied (R84). -/
  | waitSlot
  deriving DecidableEq, Repr

/-- A captured peak on a hold slot, with the hit's stamps and flags (R84). -/
structure Held where
  /-- Full coarse time of the start (epoch × 2^24 + coarse). -/
  start  : Nat
  fine   : Nat
  tot    : Nat
  /-- CHR flags 0 to 6; ASAT is the block's. -/
  flags  : BitVec 8
  /-- Held peak, microvolts above baseline. -/
  peak   : Int
  /-- A map read of the hit failed parity, or the channel's map is bad (R62): the hit leaves as a poison filler. -/
  poison : Bool
  /-- Full coarse time of the FE logic edge of the capture (R42, R43, R44). -/
  at_    : Nat
  /-- Order of capture within the cell, so that the oldest slot is converted first (R85). -/
  age    : Nat
  /-- Granted to an ADC slice and no longer waiting. -/
  granted : Bool
  deriving DecidableEq, Repr

/-- One channel cell (R33 to R55). -/
structure Cell where
  /-- Channel setting word in force (R34), triplicated (R37). -/
  word     : Trip 32
  /-- A changed word received and waiting for its take-over point (R36). -/
  waiting  : Option (BitVec 32)
  /-- A changed word whose boundary came during a hit: taken at the end of the hit's reset (R36). -/
  due      : Option (BitVec 32)
  /-- TRANGE and HITLIM in force for this cell, taken at its own take-over point (R36). -/
  trange   : Nat
  hitlim   : Nat
  /-- TRANGE and HITLIM waiting for the end of a hit in progress at the boundary. -/
  waitRegion : Option (Nat × Nat)
  phase    : CellPhase
  /-- Start of the hit in progress. -/
  start    : Nat
  startFine : Nat
  /-- Whether the start lay in a holdover interval (R69). -/
  startHold : Bool
  /-- The start's map read was bad (R62). -/
  startBad : Bool
  /-- Full coarse time of the FE logic edge at which the last peak is captured: until then the hit is in progress (R50). -/
  capAt    : Nat
  /-- Full coarse times at which the reset opens and the re-arm ends (steps 4 and 5 of R42). -/
  resetAt  : Nat
  rearmAt  : Nat
  /-- The cell ignores leading edges until this full coarse time (R36, R54). -/
  settle   : Option Nat
  /-- A dither entry drives the line until this full coarse time (R66). -/
  dither   : Option Nat
  /-- The discriminator as last reported, for the mask's end (R49). -/
  disc     : Bool
  /-- The range switch happened in the hit in progress (R44); t_s as a full coarse time. -/
  switchAt : Option Nat
  slot0    : Option Held
  slot1    : Option Held
  slot2    : Option Held
  slot3    : Option Held
  age      : Nat
  deriving DecidableEq, Repr

/-- A bin map: none is the generated seed map of R177, else 512 CENTRE values (R60). -/
abbrev BinMap := Option (List Nat)

/-- A map that waits to become active (R61). -/
structure WaitMap where
  seed  : Bool
  /-- A seed map of a band change or of a load: it clears the histogram (R67); one that repairs a bad map does not (R62). -/
  band  : Bool
  map   : BinMap
  /-- Residual in 1/256 ps, published with a rebuilt map (R63). -/
  resid : Nat
  deriving DecidableEq, Repr

/-- The TDC state of one channel (R56 to R67). -/
structure ChanTdc where
  active    : BinMap
  /-- The active map is a seed (R67). -/
  seed      : Bool
  /-- The map active before the last change, for hits begun under it (R61), and the full slice number of that change. -/
  old       : BinMap
  swapAt    : Nat
  /-- Written into the inactive buffer, not yet active. -/
  waiting   : Option WaitMap
  /-- Waits outside the buffer for its three slice boundaries. -/
  outside   : Option WaitMap
  /-- Slice boundaries still to pass before the inactive buffer accepts a map. -/
  guard     : Nat
  /-- Map marked bad by a parity error (R62). -/
  bad       : Bool
  hist      : Tbl Nat
  total     : Nat
  /-- The 512 counts taken for a rebuild that waits or runs (R63). -/
  rebuild   : Option (Tbl Nat)
  /-- Rebuilds since the last seed (R67). -/
  rebuilds  : Nat
  /-- Published residual in 1/256 ps. -/
  resid     : Nat
  /-- Starts from hits that entered the histogram in this epoch and in the one before (R65). -/
  hitsNow   : Nat
  hitsPrev  : Nat
  /-- Full coarse time at which a dither entry was last offered (R66). -/
  offered   : Option Nat
  deriving DecidableEq, Repr

/-- A conversion in flight on an ADC slice (R86). -/
structure Conv where
  cell    : Nat
  slot    : Nat
  held    : Held
  /-- Full coarse time of the grant cycle. -/
  granted : Nat
  low     : Bool
  /-- Slice timing word that the conversion runs under from start to end (R32). -/
  timing  : BitVec 32
  /-- The hold slot is freed (cycle g + 9). -/
  freed   : Bool
  /-- The offline slice samples this slot too (R90). -/
  paired  : Bool
  deriving DecidableEq, Repr

/-- One ADC slice's correction, as the exact rational line (off + mul × raw) / den (R89, R91), and its conversion. -/
structure AdcSlice where
  off  : Int
  mul  : Int
  den  : Int
  conv : Option Conv
  /-- Slice timing word in force (R31, R176). -/
  timing : BitVec 32
  deriving DecidableEq, Repr

/-- Running sums of the pairs of the offline slice (R90, R91): x offline raw, y reference. -/
structure PairSums where
  n   : Nat
  sx  : Int
  sy  : Int
  sxx : Int
  sxy : Int
  syy : Int
  deriving DecidableEq, Repr

/-- One entry of a block FIFO: the record with its poison state (R93, R94, R29). -/
structure FeRec where
  bits   : Rhr
  /-- none: good; some true: poisoned with the word holding LCHAN good; some false: LCHAN lost. -/
  poison : Option Bool
  /-- Full slice number that the record belongs to (R97, R104). -/
  slice  : Nat
  deriving DecidableEq, Repr

/-- Calibration results applied in an interval (R26, R456): the worst, its figure, the sum of the figures and their number. -/
structure Applied where
  worst  : Nat
  figure : Nat
  sum    : Nat
  n      : Nat
  deriving DecidableEq, Repr

/-- One block of 64 cells (R84 to R94). -/
structure Block where
  /-- The cell last granted (R85). -/
  rr       : Nat
  slices   : Tbl AdcSlice
  /-- Slice now offline; a slice about to leave the active set finishes its conversion first (R91). -/
  offline  : Nat
  pairs    : PairSums
  /-- Grants counted towards every 16th (R90). -/
  grants   : Nat
  /-- Next reference level (R90). -/
  level    : Nat
  /-- Full coarse time from which the 64 idle cycles count (R90). -/
  idleFrom : Nat
  /-- The reference pair last begun: the active slice that converts it, and the full coarse time at which both slices have done
  (R90). -/
  refPair  : Option (Nat × Nat)
  /-- The cell that the block's rebuild unit serves (R63). -/
  unit     : Option Nat
  /-- Published mismatch in 1/256 LSB (R91). -/
  mismatch : Nat
  fifo     : List FeRec
  reserved : Nat
  /-- The low-power rate in force (R92). -/
  low      : Bool
  /-- Full coarse time at which a FIFO reset ends (R94). -/
  resetTo  : Nat
  deriving DecidableEq, Repr

/-- One frame of a region link (R106). -/
structure Frame where
  seq   : BitVec 12
  recs  : List Rhr
  drhi  : Bool
  /-- Read position of the derandomiser after this frame. -/
  upto  : Nat
  /-- Records of the derandomiser that the frame holds; the rest are fillers. -/
  held  : Nat
  /-- Transmissions so far. -/
  sent  : Nat
  deriving DecidableEq, Repr

/-- One region link, its die side and its hub side (R105 to R110, R115, R116). -/
structure RLink where
  /-- Next frame sequence number. -/
  seq       : BitVec 12
  /-- Absolute read position in the derandomiser. -/
  read      : Nat
  /-- Unacknowledged frames, oldest first (R108). -/
  replay    : List Frame
  /-- Frames on the lanes, oldest first. -/
  wire      : List Frame
  /-- Frames still to be sent again after a NAK or a timeout. -/
  resend    : List Frame
  /-- Hub side: next expected sequence number, and whether frames are discarded until a retransmission (R108). -/
  expect    : BitVec 12
  waitRetry : Option (BitVec 12)
  /-- Failures in a row of the frame awaited (R110). -/
  failRow   : Nat
  paused    : Bool
  /-- The hub has PAUSE outstanding (R115). -/
  hubPaused : Bool
  /-- DRHI of the last good trailer that the hub received (R99). -/
  hubDrhi   : Bool
  /-- The hub retrains the link, and the FE die has heard of it (R110). -/
  retrain   : Bool
  heard     : Bool
  retries   : Nat
  aligns    : Nat
  /-- The link has failed persistently at the FE die, and at the hub (R110). -/
  failed    : Bool
  hubFailed : Bool
  /-- Marker sequence common to the four lanes (R107). -/
  marker    : BitVec 16
  /-- The marker sequences of the last marker disagreed at the hub (R107). -/
  torn      : Bool
  /-- Records of this link acknowledged: absolute position up to which they left. -/
  acked     : Nat
  /-- Starting settings of the four lanes at their last training, as entries of R304; the adaptation from there on is analog. -/
  presets   : Tbl (BitVec 64)
  deriving DecidableEq, Repr

/-- What the hub sends on a region link's control lane (R105). -/
inductive LaneMsg where
  | setting (ch : Fin 4096) (w : BitVec 32)
  | region (w : BitVec 64)
  | tdcCtl (w : BitVec 32)
  | feCtl (w : BitVec 32)
  | atime (w : BitVec 32)
  | seedMap (ch : Fin 4096) (band : Bool)
  | strobe
  | ack (seq : BitVec 12)
  | nak (seq : BitVec 12)
  | pause
  | resume
  | retrain
  /-- The hub has declared the link persistently failed (R110). -/
  | failure
  deriving DecidableEq, Repr

/-- One FE die (R35 to R37, R47 to R54, R65 to R73, R95 to R113). -/
structure Fe where
  region     : Trip 64
  regionWait : Option (BitVec 64)
  /-- TDC control word (R65) and FE control word (R95), in force and received. -/
  tdcCtl     : BitVec 32
  tdcWait    : Option (BitVec 32)
  feCtl      : BitVec 32
  feWait     : Option (BitVec 32)
  /-- Slice timing word received, taken at the next rotation step of each block (R31, R91). -/
  atime      : BitVec 32
  /-- The BLANK mask is on (R48). -/
  mask       : Bool
  /-- Full coarse times at which a mask starts, from e0 + 2, oldest first (R48). -/
  maskAt     : List Nat
  /-- Full coarse times at which a mask ends, from f0 + 2 + G, oldest first (R48). -/
  maskEnd    : List Nat
  /-- A setting sweep is due since the last epoch boundary (R37). -/
  sweep      : Bool
  /-- Full coarse time at which TPDAC last changed (R52). -/
  tpdacAt    : Option Nat
  /-- Full coarse time of the last executed injection step (R52). -/
  injAt      : Option Nat
  /-- Steps due at these full coarse times (R52). -/
  injDue     : List Nat
  /-- A strobe command received, launched at the next slice boundary (R52). -/
  strobe     : Bool
  /-- Exclusion from the histogram until this full coarse time (R64), after a TOUT-derived event. -/
  exclTo     : Nat
  /-- Loss records, and blank-start and injection events, that wait for the region arbiter (R96). -/
  lossQ      : List FeRec
  eventQ     : List FeRec
  /-- The slice marker that is due and not yet written (R96, R97). -/
  markQ      : List FeRec
  /-- The block FIFO served last (R96). -/
  rrFifo     : Nat
  /-- Derandomiser: records from absolute position `drBase` on (R98). -/
  drBase     : Nat
  dr         : List FeRec
  drhi       : Bool
  drPeak     : Nat
  /-- Records of kinds 0x1, 0x4, 0x8, 0x9 written per slice (R104), keyed by the full slice number. -/
  counts     : Tbl Nat
  /-- Full number of the next slice whose marker is to be written (R97). -/
  nextMarker : Nat
  linkA      : RLink
  linkB      : RLink
  /-- The PLL reference is the holdover reference (R72), and the full coarse time the interval began. -/
  hold       : Option Nat
  /-- Holdover intervals that have ended: first and last full coarse tick (R69, R104). -/
  holds      : List (Nat × Nat)
  /-- No leading edge is accepted, no slice formed, no marker written (R444 step 2). -/
  stopped    : Bool
  /-- Channels whose seed map has arrived on the control lane and is not yet written, each with whether it clears the histogram
  (R61, R62, R67). -/
  mapIn      : List (Nat × Bool)
  /-- Full coarse time of the last return to ACTIVE (R90). -/
  activeFrom : Nat
  /-- Maps and slice corrections applied since the last CALQ entries (R456). -/
  calqMaps   : Applied
  calqAdc    : Applied
  deriving DecidableEq, Repr

/-- Majority vote of three copies (R37). -/
def Trip.vote {w : Nat} (t : Trip w) : BitVec w :=
  (t.c0 &&& t.c1) ||| (t.c0 &&& t.c2) ||| (t.c1 &&& t.c2)

/-- A word written to all three copies. -/
def Trip.all {w : Nat} (v : BitVec w) : Trip w :=
  ⟨v, v, v⟩

/-- Channel setting word at SEED: THR 0x3FF, RESET 0x3, IRET 0x3, the rest 0 (R34). -/
def settingAtSeed : BitVec 32 :=
  0x0FFCCC00

/-- Region setting word at SEED: TRANGE 0b111, HITLIM 64, the rest 0 (R35). -/
def regionAtSeed : BitVec 64 :=
  0xE000000002000000

/-- TDC control word at SEED: DLOW 1,024, DPER 6, EXCL 16 (R65). -/
def tdcCtlAtSeed : BitVec 32 :=
  0x04006100

/-- FE control word at SEED: DRHI 12, DRLO 8, RLERR 4, LAG 8 (R95). -/
def feCtlAtSeed : BitVec 32 :=
  0x00C84800

/-- A cell after bring-up step 5 (R432): At SEED settings, no hit. -/
def Cell.init : Cell where
  word := Trip.all settingAtSeed
  waiting := none
  due := none
  trange := 7
  hitlim := 64
  waitRegion := none
  phase := .armed
  start := 0
  startFine := 0
  startHold := false
  startBad := false
  capAt := 0
  resetAt := 0
  rearmAt := 0
  settle := none
  dither := none
  disc := false
  switchAt := none
  slot0 := none
  slot1 := none
  slot2 := none
  slot3 := none
  age := 0

/-- A channel's TDC with its generated seed map active (R177). -/
def ChanTdc.init : ChanTdc where
  active := none
  seed := true
  old := none
  swapAt := 0
  waiting := none
  outside := none
  guard := 0
  bad := false
  hist := []
  total := 0
  rebuild := none
  rebuilds := 0
  resid := 0
  hitsNow := 0
  hitsPrev := 0
  offered := none

/-- A slice with the identity correction and no conversion. -/
def AdcSlice.init : AdcSlice where
  off := 0
  mul := 1
  den := 1
  conv := none
  timing := 0

/-- No pairs collected. -/
def PairSums.zero : PairSums := ⟨0, 0, 0, 0, 0, 0⟩

/-- No result applied yet. -/
def Applied.zero : Applied := ⟨0, 0, 0, 0⟩

/-- A block at reset. -/
def Block.init : Block where
  rr := 63
  slices := []
  offline := 16
  pairs := PairSums.zero
  grants := 0
  level := 0
  idleFrom := 0
  refPair := none
  unit := none
  mismatch := 0
  fifo := []
  reserved := 0
  low := false
  resetTo := 0

/-- The built-in starting presets of a region-link lane, as an entry of R304: PRE 0, POST 4, AMP 8, CTLE 6 dB, DFE1 0 (R305). -/
def linkPreset : BitVec 64 := 4 * 2 ^ 55 + 8 * 2 ^ 51 + 6 * 2 ^ 47

/-- A region link at reset. -/
def RLink.init : RLink where
  seq := 0
  read := 0
  replay := []
  wire := []
  resend := []
  expect := 0
  waitRetry := none
  failRow := 0
  paused := false
  hubPaused := false
  hubDrhi := false
  retrain := false
  heard := false
  retries := 0
  aligns := 0
  failed := false
  hubFailed := false
  marker := 0
  torn := false
  acked := 0
  presets := []

/-- An FE die at reset. -/
def Fe.init : Fe where
  region := Trip.all regionAtSeed
  regionWait := none
  tdcCtl := tdcCtlAtSeed
  tdcWait := none
  feCtl := feCtlAtSeed
  feWait := none
  atime := 0
  mask := false
  maskAt := []
  maskEnd := []
  sweep := false
  tpdacAt := none
  injAt := none
  injDue := []
  strobe := false
  exclTo := 0
  lossQ := []
  eventQ := []
  markQ := []
  rrFifo := 7
  drBase := 0
  dr := []
  drhi := false
  drPeak := 0
  counts := []
  nextMarker := 0
  linkA := RLink.init
  linkB := RLink.init
  hold := none
  holds := []
  stopped := false
  mapIn := []
  activeFrom := 0
  calqMaps := Applied.zero
  calqAdc := Applied.zero

end Sys2Proof.Machine
end

