-- ==== Sys2Proof/Machine/HubTypes.lean ====
section
/-!
DEFINITION. The state of the hub engines on the data path: sorter, sheaves, gleaners, collector, latency ring, merge buffer,
scrubber, trigger engine, capture and balers.
-/

namespace Sys2Proof.Machine

/-- A record in a hub: its bits as stored, and which of its three words passed parity (R101, R117). -/
structure SRec where
  bits : Rhr
  ok2  : Bool
  ok1  : Bool
  ok0  : Bool
  deriving DecidableEq, Repr

/-- A sheaf: the records of one region and one slice, its header fields (R124) and its context (R122). -/
structure Sheaf where
  region : Nat
  epoch  : BitVec 32
  slice  : BitVec 12
  recs   : List SRec
  /-- Records of kinds 0x1, 0x4, 0x8, 0x9 placed by their slice, those dropped at the cap included (R119). -/
  placed : Nat
  nlost  : Nat
  ctx    : List SRec
  hold   : Bool
  fence  : Bool
  ctxovf : Bool
  cap    : Bool
  forced : Bool
  /-- Pages of the sheaf pool, first page first (R123). -/
  pages  : List Nat
  /-- Run number, 1 on the first run (R164). -/
  run    : Nat
  deriving DecidableEq, Repr

/-- The sorter of one region (R118 to R122). -/
structure Sorter where
  /-- Open sheaves, oldest slice first. -/
  opened   : List Sheaf
  /-- Last slice closed for the region and its epoch. -/
  last     : BitVec 12
  lastEp   : BitVec 32
  /-- NLOST to be added to the next sheaf that closes (R119). -/
  carry    : Nat
  /-- Sheaves closed and not yet passed to the distributor (R122). -/
  closed   : List Sheaf
  /-- Records placed in sheaves already closed, keyed by slice, for markers that come late (R119). -/
  placed   : Tbl Nat
  /-- Blank-start and injection events of recent slices, in order of arrival (R122). -/
  events   : List (BitVec 12 × SRec)
  /-- The region is fenced (R112), with the slice of the sheaf that carries the loss record. -/
  fenced   : Bool
  fenceEp  : BitVec 32
  fenceSl  : BitVec 12
  /-- Epoch whose start lifts the fence (R113). -/
  liftAt   : Option (BitVec 32)
  /-- Full slice number below which records of the region are discarded after a fence (R113). -/
  fromSl   : Option Nat
  /-- Full number of the first slice that the run takes from the region (R118). -/
  firstSl  : Nat
  deriving DecidableEq, Repr

/-- Why a gleaner does not issue (R145, R154, R137). -/
inductive GWait where
  | run
  /-- Waits in take: idle in the sense of R125 (R145). -/
  | take
  /-- Waits in waitev for events of the mask, since a step number (R166). -/
  | event (mask : BitVec 2) (rd : Nat)
  /-- A read stalls for a reload from the table store (R137); what completes it. -/
  | reload
  deriving DecidableEq, Repr

/-- One gleaner (R143 to R169). -/
structure Gleaner where
  regs   : Tbl (BitVec 64)
  /-- P bits of the general registers and of the wisps. -/
  pg     : BitVec 32
  wisps  : Tbl Rec128
  pw     : BitVec 4
  sp     : Bool
  pc     : BitVec 17
  wait   : GWait
  sheaf  : Option Sheaf
  /-- Records and context already read. -/
  cursor : Nat
  /-- Counted steps since the take (R138). -/
  watch  : Nat
  /-- Idle steps still to pass before the next take (R403). -/
  idle   : Nat
  fenced : Bool
  /-- A fault that fences the gleaner at the next step boundary: cause and address (R169). -/
  fault  : Option (Nat × BitVec 17)
  /-- Output of the sheaf in progress (R128, R162). -/
  out    : List Rec128
  prims  : List (BitVec 64)
  pdrop  : Nat
  pages  : Nat
  /-- Output dropped at the limit of R128, and the CAP bit it sets. -/
  outLost : Nat
  outCap : Bool
  /-- Replies queued for mrecv, at most 4 (R167). -/
  replies : List (BitVec 64)
  deriving DecidableEq, Repr

/-- A sheaf's output as the collector holds it (R126). -/
structure DoneSheaf where
  region : Nat
  seq    : Nat
  recs   : List Rec128
  prims  : List (BitVec 64)
  pdrop  : Nat
  nlost  : Nat
  hold   : Bool
  /-- Forced, capped or abandoned (R127). -/
  forced : Bool
  pages  : List Nat
  outPages : Nat
  deriving DecidableEq, Repr

/-- A message in the mailbox to Hayward (R167). -/
structure Mail where
  gleaner : Nat
  seq     : Nat
  lo      : BitVec 64
  hi      : BitVec 64
  poison  : Bool
  deriving DecidableEq, Repr

/-- A table write on its way (R150, R187): the table, the offset, the bytes, the full slice number of its boundary, and the TABLE
command that completes with it. -/
structure TableWrite where
  id    : Nat
  off   : Nat
  bytes : List Byte
  at_   : Nat
  src   : Option Src
  deriving DecidableEq, Repr

/-- The hub core from ingress to collector (R115 to R142). -/
structure HubCore where
  /-- Ingress FIFO of each region, oldest first (R115). -/
  ingress  : Tbl (List SRec)
  sorters  : Tbl Sorter
  /-- Pages of the sheaf pool in use (R123), and output pages in use (R128). -/
  usedPages : List Nat
  usedOut  : Nat
  /-- Lowest free counts since the last QUERY (R142). -/
  lowPages : Nat
  lowOut   : Nat
  /-- Sheaves in the distributor, in the order passed on (R125). -/
  distrib  : List Sheaf
  deques   : Tbl (List Sheaf)
  gleaners : Tbl Gleaner
  done     : List DoneSheaf
  /-- A run is in progress; epoch start and stop boundaries asked for by scripts (R204, R488). -/
  running  : Bool
  startReq : Bool
  stopReq  : Bool
  /-- Full slice number (R124) at which the run stops, once its boundary has come (R488). -/
  stopSl   : Option Nat
  /-- Full coarse time at which acquisition started (R244). -/
  startAt  : Nat
  /-- Sequence number of the next slice to release. -/
  nextSl   : Nat
  /-- Slices released in the last 16 steps, each with its step (R378). -/
  recent   : List (Nat × Nat)
  /-- Slices skipped since the last release, for GAP entries (R206). -/
  gapFrom  : Option Nat
  /-- Records of kinds 0x5, 0x6, 0x7 formed since the previous slice marker (R126). -/
  service  : List Rec128
  mailbox  : List Mail
  /-- Table writes that wait for their slice boundary and for the drain of R150, oldest first. -/
  tableDue : List TableWrite
  /-- Skew tables that a write has replaced, each with the full number of the first slice that no longer uses it, oldest first
  (R80, R82). -/
  oldSkews : List (Nat × List Host.Cell)
  /-- Placement of sheaves from this slice number on is stopped (R150). -/
  holdFrom : Option Nat
  /-- Quarters fenced as a whole (R141). -/
  quarters : BitVec 4
  deriving DecidableEq, Repr

/-- An entry of the merge buffer (R215, R216). -/
structure MergeEntry where
  line   : Nat
  data   : Line
  valid  : BitVec 128
  locked : Bool
  deriving DecidableEq, Repr

/-- The scrubber of a hub: next line, passes completed, the evaluation in which the pass in progress began, and the rate in force in
seconds (R217, R227, R31). -/
structure Scrub where
  next   : Nat
  passes : Nat
  since  : Nat
  rate   : Nat
  deriving DecidableEq, Repr

/-- The latency ring and its directory (R204 to R209), with the GDDR7 contents of the hubs in lockstep. -/
structure Ring where
  /-- Density of the devices in Gb, read in SELFTEST (R198). -/
  density : Nat
  /-- The initialisation sweep has run (R220). -/
  swept   : Bool
  /-- Lines that differ from what the sweep, the table store or the sets of R213 give. -/
  lines   : Tbl Line
  w       : Nat
  p       : BitVec 16
  d       : BitVec 16
  j       : Nat
  q0      : Nat
  /-- Ring pass at the start of the run (R204). -/
  p0      : BitVec 16
  /-- Image slots 0 and 1 of the table store (R213). -/
  image0  : List Byte
  image1  : List Byte
  /-- Newest released slice. -/
  newest  : Option Nat
  /-- A run has begun since SELFTEST. -/
  begun   : Bool
  /-- An even directory entry waiting for its odd partner (R206), 448 bits. -/
  even    : Option (BitVec 448)
  gdepth  : Nat
  merge   : List MergeEntry
  /-- Writes that wait for a merge-buffer entry: line, offset, bytes, oldest first (R216). -/
  mergeQ  : List (Nat × Nat × List Byte)
  /-- The scrubbers of hub A and hub B (R217). -/
  scrubA  : Scrub
  scrubB  : Scrub
  deriving DecidableEq, Repr

/-- Split-write window registers (R224). -/
structure Window where
  target : BitVec 2
  lineNo : BitVec 10
  done   : Bool
  err    : Bool
  misdir : Bool
  count  : BitVec 16
  swpar  : Bool
  data   : BitVec 960
  mark   : BitVec 32
  crc    : BitVec 32
  read   : Line
  /-- The SRAM test word and its parity bit. -/
  word   : BitVec 32
  wordPar : Bool
  deriving DecidableEq, Repr

/-- One TCMD pair (R228, R230). -/
structure Pair where
  locked : Bool
  /-- Reported TCMDNOLOCK: left unused. -/
  unused : Bool
  deriving DecidableEq, Repr

/-- The decode machine and its inputs (R179, R228 to R230). -/
structure Tcmd where
  pair0   : Pair
  pair1   : Pair
  /-- Pair in use; none when neither is locked. -/
  inUse   : Option (Fin 2)
  /-- Error flags of the last 64 units (R230). -/
  errs    : BitVec 64
  state   : Nat
  cnt     : Nat
  fields  : Tbl Nat
  /-- RAW unit: skip one received bit before the next unit (R179). -/
  slip    : Bool
  /-- RAW unit: received bits not yet taken by a unit, oldest first: the unit alignment (R179). -/
  bits    : List Bool
  deriving DecidableEq, Repr

/-- State of a trigger-queue entry (R240). -/
inductive EntryState where
  | waiting | closed | capturing | draining
  deriving DecidableEq, Repr

/-- A trigger-queue entry (R235, R240). -/
structure TrigEntry where
  num      : BitVec 32
  st       : EntryState
  conds    : BitVec 16
  /-- Window in full coarse time. -/
  ws       : Int
  we       : Int
  outs     : BitVec 5
  comp     : Bool
  soft     : Bool
  stream   : Bool
  prestart : Bool
  trunc    : Bool
  /-- The margin M in force when the window closed (R236). -/
  margin   : Nat
  /-- Parts made and parts not yet handed out. -/
  partsLeft : Nat
  lastMade : Bool
  deriving DecidableEq, Repr

/-- A fragment part in output staging (R243, R245). -/
structure Part where
  num     : BitVec 32
  epoch   : BitVec 32
  wstart  : BitVec 24
  part    : Nat
  wlen    : Nat
  conds   : BitVec 16
  flags   : BitVec 16
  losscnt : Nat
  recs    : List Rec128
  node    : BitVec 16
  /-- Payload bytes of a merged part (R326), in place of records; RECORDS of the header. -/
  raw     : Option (List Byte)
  nrec    : Nat
  /-- Destinations still to take the part: bit 0 PCIe, bits 1 to 4 ports. -/
  dests   : BitVec 5
  /-- Destinations that wait for a baler job, and the frames committed: profile and bytes (R252, R266). -/
  jobs    : Tbl Nat
  frames  : Tbl (List Byte)
  /-- Data ring of the fragment, fixed when part 0 is handed over (R286). -/
  ring    : Nat
  /-- Handed to its destinations in this order. -/
  merged  : Bool
  deriving DecidableEq, Repr

/-- A finding of capture other than a record: a poisoned or overwritten line, or a slice that is gone (R244, R247). -/
structure CapNote where
  at_     : Nat
  flags   : BitVec 16
  loss    : Nat
  unknown : Bool
  deriving DecidableEq, Repr

/-- The capture unit (R241 to R247). -/
structure Capture where
  num     : BitVec 32
  /-- Slices of the range still to read. -/
  slices  : List Nat
  /-- Lines of the slice in front already read, and what they gave: records in ring order. -/
  line    : Nat
  got     : List Rec128
  recs    : List Rec128
  part    : Nat
  /-- What was met on the way, each with the number of records in capture before it (R244, R246, R247). -/
  notes   : List CapNote
  /-- A part of the fragment carried TRUNC (R250). -/
  truncated : Bool
  /-- Data ring, fixed with part 0 (R286). -/
  ring    : Nat
  deriving DecidableEq, Repr

/-- The lines of output staging that hold a part, or a frame of it (R200). -/
structure Extent where
  num    : BitVec 32
  epoch  : BitVec 32
  part   : Nat
  merged : Bool
  /-- Profile of the baler frame; none for the part itself. -/
  frame  : Option Nat
  start  : Nat
  lines  : Nat
  deriving DecidableEq, Repr

/-- Trigger engine (R228 to R250). -/
structure Trigger where
  tcmd    : Tcmd
  mask    : BitVec 16
  /-- Masks replaced, each with the step of its replacement, oldest first: they hold for instances stamped before it (R231). -/
  oldMasks : List (Nat × BitVec 16)
  queue   : List TrigEntry
  nextNum : BitVec 32
  margin  : Nat
  cap     : Option Capture
  staging : List Part
  /-- Where parts and frames lie in output staging (R200). -/
  extents : List Extent
  /-- Next stream window start (R239). -/
  streamAt : Option Int
  /-- BUSY_N sources at or above their high watermark (R248): queue, staging, ingress, derandomisers. -/
  busyQ   : Bool
  busyS   : Bool
  busyI   : Bool
  busyD   : Bool
  /-- BUSY_N as the hubs drive it: true is low. -/
  busy    : Bool
  deriving DecidableEq, Repr

/-- A baler job (R252, R253, R260, R264, R267). -/
structure Job where
  num     : BitVec 32
  part    : Nat
  prof    : Nat
  recs    : List Rec128
  /-- Sync points: record indices at which flushes cut (R260). -/
  syncs   : List Nat
  /-- Runs again with the full bound (R267). -/
  larger  : Bool
  /-- Runs again in stored form (R264). -/
  stored  : Bool
  /-- Flush commands that wait for their block end. -/
  flushes : List Src
  /-- Output allocation reserved while the job runs (R266). -/
  alloc   : Nat
  deriving DecidableEq, Repr

/-- One baler (R251 to R271). -/
structure Baler where
  failed  : Bool
  job     : Option Job
  /-- Step at which its last job started (R403). -/
  lastStart : Option Nat
  inBytes : Nat
  outBytes : Nat
  deriving DecidableEq, Repr

/-- A sorter before a run. -/
def Sorter.init : Sorter where
  opened := []
  last := 0xFFF
  lastEp := 0
  carry := 0
  closed := []
  placed := []
  events := []
  fenced := false
  fenceEp := 0
  fenceSl := 0
  liftAt := none
  fromSl := none
  firstSl := 0

/-- A gleaner after hub reset: everything zero, no sheaf (R144). -/
def Gleaner.init : Gleaner where
  regs := []
  pg := 0
  wisps := []
  pw := 0
  sp := false
  pc := 0
  wait := .run
  sheaf := none
  cursor := 0
  watch := 0
  idle := 0
  fenced := false
  fault := none
  out := []
  prims := []
  pdrop := 0
  pages := 0
  outLost := 0
  outCap := false
  replies := []

/-- A baler at reset. -/
def Baler.init : Baler where
  failed := false
  job := none
  lastStart := none
  inBytes := 0
  outBytes := 0

/-- Pages of the sheaf pool (R123). -/
def sheafPages : Nat := 1536

/-- Pages of the output pool (R128). -/
def outPagesTotal : Nat := 448

/-- The hub core at reset. -/
def HubCore.init : HubCore where
  ingress := []
  sorters := []
  usedPages := []
  usedOut := 0
  lowPages := sheafPages
  lowOut := outPagesTotal
  distrib := []
  deques := []
  gleaners := []
  done := []
  running := false
  startReq := false
  stopReq := false
  stopSl := none
  startAt := 0
  nextSl := 0
  recent := []
  gapFrom := none
  service := []
  mailbox := []
  tableDue := []
  oldSkews := []
  holdFrom := none
  quarters := 0

/-- The ring at reset: after SELFTEST, P and D start at 2 (R204). -/
def Ring.init : Ring where
  density := 24
  swept := false
  lines := []
  w := 0
  p := 2
  d := 2
  j := 0
  q0 := 0
  p0 := 2
  image0 := []
  image1 := []
  newest := none
  begun := false
  even := none
  gdepth := 0
  merge := []
  mergeQ := []
  scrubA := ⟨0, 0, 0, 0⟩
  scrubB := ⟨0, 0, 0, 0⟩

/-- The window at SEED (R224). -/
def Window.init : Window where
  target := 0
  lineNo := 0
  done := false
  err := false
  misdir := false
  count := 0
  swpar := false
  data := 0
  mark := 0
  crc := 0
  read := 0
  word := 0
  wordPar := true

/-- The TCMD receivers at reset: the hub decodes TCMD (R230). -/
def Tcmd.init : Tcmd where
  pair0 := ⟨false, false⟩
  pair1 := ⟨false, false⟩
  inUse := some 0
  errs := 0
  state := 0
  cnt := 0
  fields := []
  slip := false
  bits := []

/-- The trigger engine at reset. -/
def Trigger.init : Trigger where
  tcmd := Tcmd.init
  mask := 0xFFFF
  oldMasks := []
  queue := []
  nextNum := 0
  margin := 1
  cap := none
  staging := []
  extents := []
  streamAt := none
  busyQ := false
  busyS := false
  busyI := false
  busyD := false
  busy := true

end Sys2Proof.Machine
end

