-- ==== Sys2Proof/Machine/LinkTypes.lean ====
section
/-!
DEFINITION. The state of the host interface, the Fodafort ports, the time service, the tally units and the redundancy engine.
-/

namespace Sys2Proof.Machine

/-- A command in progress (R186): the 128-bit command word, and what its WAIT has seen (R190). -/
structure Cmd where
  word : BitVec 128
  /-- Events of WAIT SUB 2 that passed their gate since the WAIT passed its own (R190). -/
  seen : BitVec 32
  /-- Position in fetch order over all rings, for FENCE (R186). -/
  order : Nat
  /-- Bytes of the command's buffer that have arrived (R291). -/
  bytes : Nat
  deriving DecidableEq, Repr

/-- A command ring control block and its engine (R194 to R197). -/
structure CmdRing where
  sqbase : BitVec 64
  cqbase : BitVec 64
  en     : Bool
  vec    : BitVec 6
  cqlog  : BitVec 4
  sqlog  : BitVec 4
  sqtail : Nat
  cqhead : Nat
  run    : Bool
  err    : Bool
  sqhead : Nat
  cqtail : Nat
  phase  : Bool
  cmd    : Option Cmd
  deriving DecidableEq, Repr

/-- A data ring control block and its engine (R280 to R289). -/
structure DataRing where
  dbase   : BitVec 64
  ebase   : BitVec 64
  en      : Bool
  compact : Bool
  ro      : Bool
  vec     : BitVec 6
  elog    : BitVec 4
  dlog    : BitVec 4
  icnt    : BitVec 8
  imod    : BitVec 16
  run     : Bool
  err     : Bool
  stall   : Bool
  dprod   : BitVec 32
  dcons   : BitVec 32
  etail   : Nat
  econs   : Nat
  seqnext : BitVec 64
  /-- Entries written since the last message, and the step of the first of them, from which the moderation timer runs (R289). -/
  since   : Nat
  timer   : Option Nat
  /-- Service records dropped before the next entry (R285). -/
  lost    : Nat
  deriving DecidableEq, Repr

/-- An entry of the MSI-X table as reset leaves it: masked (R288). -/
def vectorAtReset : BitVec 128 := BitVec.ofNat 128 (2 ^ 96)

/-- One PCIe endpoint and the per-hub registers of the status area (R273 to R277, R295, R485). -/
structure Endpoint where
  /-- PERST input high (released). -/
  perst   : Bool
  linkUp  : Bool
  /-- The link has reached L0 at least once since the reset of the hub (R362). -/
  wired   : Bool
  speed   : Nat
  width   : Nat
  /-- Configuration registers that the host has written, by dword offset. -/
  cfg     : Tbl (BitVec 32)
  bme     : Bool
  /-- MSI-X Enable and Function Mask (R288). -/
  msix    : Bool
  masked  : Bool
  /-- The MSI-X table in BAR2, whose unlisted entries are masked, and the Pending Bit Array (R274, R288). -/
  vectors : Tbl (BitVec 128)
  pba     : BitVec 64
  /-- The endpoint does not train: that of hub B where OTP selects simplex (R11, R378). -/
  off     : Bool
  d3hot   : Bool
  /-- ASPM L1 and L1.2 enabled (R295). -/
  aspmL1  : Bool
  aspmL12 : Bool
  /-- Link power state: 0 L0, 1 L1, 2 L1.2 (R295). -/
  lstate  : Nat
  /-- DMA errors that AER holds, and the replies held back with retry status (R275, R291). -/
  aer     : Nat
  seedwr  : BitVec 32
  scratch : BitVec 32
  stepHi  : BitVec 32
  /-- CAUSE of the hub's last reset (R485). -/
  cause   : BitVec 2
  /-- CLKREQ# pin driven low by this endpoint (R295, R367). -/
  clkreq  : Bool
  deriving DecidableEq, Repr

/-- What leaves the node. Every output is kept as the data that leaves, in the order it leaves (R8, R290). -/
inductive Out where
  /-- Bytes written to host memory. -/
  | write (addr : Nat) (bytes : List Byte)
  /-- Bytes written to a data buffer, with the Relaxed Ordering attribute or without (R290). -/
  | data (addr : Nat) (bytes : List Byte) (ro : Bool)
  /-- An MSI-X message of a hub's endpoint (R288). -/
  | msix (h : Hub) (vec : Nat)
  /-- A sequenced frame that a port forms, by its type and payload: it takes its FSEQ as it leaves (R314, R316). -/
  | frame (port : Nat) (type : Nat) (payload : List Byte)
  /-- A CTRL word of one copy of a port, or of both (R315). -/
  | ctrl (copy : Option Hub) (port : Nat) (sub : Nat) (arg : Nat)
  /-- The payload of a TIME frame of a port (R338). -/
  | time (port : Nat) (payload : List Byte)
  /-- A frame on the lanes of a copy of a port (R314). -/
  | sent (h : Hub) (port : Nat) (frame : PortFrame)
  /-- A training word that a lane sends (R306). -/
  | training (h : Hub) (lane : Nat) (word : BitVec 56)
  /-- A TOUT ball's level (R348). -/
  | tout (k : Nat) (level : Bool)
  /-- A completion for a configuration request or a register read: hub, register, value. -/
  | read (h : Hub) (reg : Nat) (value : BitVec 64)
  /-- What the data register that a test-port instruction selects holds at its first bit out: the IDCODE, or a 0 (R481). -/
  | tdo (die : Nat) (value : BitVec 32)
  /-- A configuration request answered with retry status (R275). -/
  | retry (h : Hub)
  /-- A read request on the bus: address and length (R290). -/
  | readReq (addr : Nat) (len : Nat)
  deriving DecidableEq, Repr

/-- PCIe side of the node (R192 to R197, R272 to R296). -/
structure Pcie where
  rings   : Tbl CmdRing
  dataRings : Tbl DataRing
  select  : BitVec 64
  epA     : Endpoint
  epB     : Endpoint
  cause   : BitVec 4
  mask    : BitVec 4
  /-- The host has enabled a ring or written a doorbell (R277). -/
  touched : Bool
  /-- Commands fetched so far. -/
  fetched : Nat
  /-- Service records of released slices that wait for ring 7 (R285): slice sequence number and records. -/
  svc     : List (Nat × List Rec128)
  /-- Outputs of steps not yet released, each with its step (R361). -/
  outQ    : List (Nat × Out)
  /-- Released sequenced outputs not yet acknowledged, for replay (R292, R318). -/
  replay  : List (Nat × Out)
  /-- Last step whose PCIe output is acknowledged (R292). -/
  acked   : Nat
  /-- What has left the node, oldest first. -/
  out     : List Out
  peak    : Nat
  deriving DecidableEq, Repr

/-- Training state of a port copy (R307). -/
inductive PortState where
  | off | detect | link | eq | align | up | wake | backoff
  deriving DecidableEq, Repr

/-- One lane's transmitter and receiver settings (R300, R301). -/
structure Lane where
  pre   : Nat
  post  : Nat
  amp   : Nat
  ctle  : Nat
  dfe1  : Int
  /-- Partner's training word last received on the lane (R306). -/
  word  : Option (BitVec 56)
  conv  : Bool
  /-- RSP: the answer to the partner's last request (R306). -/
  rsp   : BitVec 2
  deriving DecidableEq, Repr

/-- One hub's copy of a port (R307 to R313). -/
structure PortCopy where
  st      : PortState
  rate    : Nat
  /-- Highest rate code still tried, after ALIGN timeouts (R307). -/
  cap     : Nat
  lanes   : Tbl Lane
  /-- Length in ms of the back-off wait in force or next (R309). -/
  wait    : Nat
  /-- FFDOWN raised since the claim or since UP; FFROLE raised (R308, R309). -/
  downSaid : Bool
  roleSaid : Bool
  /-- Has been UP since the reset of its hub (R362). -/
  wired   : Bool
  idle    : Bool
  /-- Partner announced QUIET (R311). -/
  quiet   : Bool
  marker  : BitVec 16
  markerKnown : Bool
  /-- SEQ of the last marker sent (R310, R312). -/
  txMarker : BitVec 16
  /-- Consecutive markers with a SEQ fault (R310). -/
  badSeq  : Nat
  /-- Came through LINK and EQ since last UP (R317). -/
  fresh   : Bool
  partner : BitVec 16
  partnerRole : BitVec 2
  deriving DecidableEq, Repr

/-- An exchange of time messages in progress or completed (R341, R342), times in units of 2^-16 ns. -/
structure Exchange where
  seqid : BitVec 16
  t1    : Int
  t2    : Int
  t3    : Int
  t4    : Int
  deriving DecidableEq, Repr

/-- A candidate for the time master (R344). -/
structure Candidate where
  prio  : Nat
  gmid  : Nat
  steps : Nat
  /-- ANNOUNCE intervals since it was received. -/
  age   : Nat
  deriving DecidableEq, Repr

/-- A part being received on a MERGE-IN port (R320, R323). -/
structure RxPart where
  trigno : BitVec 32
  part   : Nat
  bytes  : List Byte
  gap    : Bool
  deriving DecidableEq, Repr

/-- One port, the state its two copies share (R314 to R322). -/
structure Port where
  copyA   : PortCopy
  copyB   : PortCopy
  txseq   : BitVec 16
  rxseq   : BitVec 16
  /-- Accepted sequenced frames since the last ACK (R316). -/
  ackDue  : Bool
  paused  : Bool
  /-- Unacknowledged sequenced frames: step, FSEQ, type, payload (R318). -/
  unacked : List (Nat × BitVec 16 × Nat × List Byte)
  /-- Primitive staging: bytes in use of 8 KiB while the port takes no PRIM frame (R321). -/
  primBytes : Nat
  rx      : Option RxPart
  /-- Merge-in back-pressure outstanding (R319). -/
  pauseOut : Bool
  /-- SYNC count of the port, exchange in progress, the last 16 (R338, R341, R342). -/
  syncId  : BitVec 16
  exch    : Option Exchange
  last    : List Exchange
  cand    : Option Candidate
  deriving DecidableEq, Repr

/-- A member part of a merge set (R323): member (0 own, 1 + port), its header and bytes. -/
structure Member where
  member : Nat
  part   : Nat
  bytes  : List Byte
  gap    : Bool
  deriving DecidableEq, Repr

/-- An open merge set (R323 to R325). -/
structure MergeSet where
  trigno  : BitVec 32
  epoch   : BitVec 32
  members : List Nat
  parts   : List Member
  deriving DecidableEq, Repr

/-- Fodafort (R297 to R327). -/
structure Foda where
  ports  : Tbl Port
  sets   : List MergeSet
  closed : List (BitVec 32 × BitVec 32)
  /-- Bytes of member parts in the merge area (R323). -/
  area   : Nat
  deriving DecidableEq, Repr

/-- A TOUT generator (R346 to R351). Times in units of 2^-16 ns. -/
structure ToutGen where
  en     : Bool
  start  : Int
  period : Nat
  width  : Nat
  pin    : Bool
  pol    : Bool
  evt    : Bool
  count  : Nat
  /-- Index of the next target, and pulses made. -/
  next   : Nat
  made   : Nat
  level  : Bool
  /-- Full coarse time of the trailing edge of the pulse in progress. -/
  trail  : Option Nat
  /-- A block that waits for its slice boundary (R347). -/
  wait   : Option (BitVec 256)
  deriving DecidableEq, Repr

/-- Node time and the time service (R328 to R352). -/
structure TimeSvc where
  sec     : Nat
  /-- ns × 2^32 and fraction, in units of 2^-32 ns (R329), at the last slice boundary. -/
  v       : Nat
  incr    : Nat
  /-- INCR and steps written, applied at the next epoch boundary (R332); steps in units of 2^-16 ns. -/
  incrDue : Option Nat
  stepDue : Option Int
  /-- Epoch markers captured and not yet emitted (R335): the slice 0 that each precedes, none for the marker that follows
  frost (R334). -/
  marks   : List (Option Nat × Rec128)
  w0      : BitVec 64
  w1      : BitVec 64
  w2      : BitVec 64
  /-- Winning port (R344); own candidate; none. -/
  slave   : Option Nat
  own     : Bool
  win     : Option (Nat × Nat × Nat)
  gens    : Tbl ToutGen
  /-- Servo of R470: correction f in units of 2^-52 and accumulated offsets in units of 2^-16 ns, offsets of this epoch. -/
  servoF  : Int
  servoAcc : Int
  offsets : List Int
  /-- Figure of R443: node time by which the last boundary missed the rule, in units of 2^-32 ns. -/
  miss    : Int
  deriving DecidableEq, Repr

/-- Set-up of a tally unit (R76, R188). -/
structure TallySetup where
  diff  : Bool
  src   : Nat
  chan  : Nat
  pnom  : Nat
  gate  : Nat
  cont  : Bool
  slope : Bool
  thr   : Nat
  evt   : Nat
  dly   : Int
  win   : Nat
  k     : Nat
  target : Nat
  deriving DecidableEq, Repr

/-- Sums of the regression (R78). -/
structure TallySums where
  n     : Nat
  sn    : Int
  st    : Int
  snn   : Int
  snt   : Int
  stt   : Int
  slips : Nat
  prevT : Int
  prevN : Int
  deriving DecidableEq, Repr

/-- A tally unit (R74 to R83). -/
structure Tally where
  setup   : Option TallySetup
  /-- Set-up that replaces the run at the gate boundary (R188). -/
  nextSetup : Option TallySetup
  /-- Full number of the slice in which the set-up took effect (R77). -/
  readySl : Nat
  opened  : Bool
  closed  : Bool
  /-- Gate opening in fine units of the timebase (R77). -/
  openAt  : Nat
  sums    : TallySums
  hold    : Bool
  gseq    : BitVec 8
  result  : Option Rec128
  /-- Stamps on their way to the unit (R75, R350). -/
  stamps  : List Nat
  /-- Difference run: event times E_k in coarse ticks, and the hits released since it began, as channel, calibrated ToA in fine
  ticks and the skew entry that the records of its slice use (R80). -/
  pulses  : List Int
  hits    : List (Nat × Int × Int)
  /-- Stored means: reference channel and means in 1/16 fine tick (R81). -/
  baseRef : Option Nat
  base    : Tbl Int
  /-- Skew fit residual published, 1/256 ps, by channel (R83). -/
  resid   : Tbl Nat
  deriving DecidableEq, Repr

/-- Health of a hub in the pair (R365, R372). -/
inductive Role where
  | active | eligible | warming | joining | faulty | simplex
  deriving DecidableEq, Repr

/-- Per-hub redundancy state (R353 to R383). -/
structure HubRed where
  role     : Role
  /-- Local errors reported, with the step of detection (R362). -/
  errs     : List (LocalErr × Nat)
  /-- Failed rejoins within the hour: always-on cycle counts (R372). -/
  fails    : List Nat
  attempts : Nat
  failPhase : Nat
  joinPhase : Nat
  joinSeq  : Option Nat
  /-- Step of becoming eligible, for DIVREPEAT (R377). -/
  eligAt   : Option Nat
  /-- Class-F error or a failed self-test in bring-up (R433). -/
  dead     : Bool
  deriving DecidableEq, Repr

/-- Items a gate carries (R355, R356). -/
inductive Item where
  | raw (region : Fin 8) (r : SRec)
  | inst (field : Nat) (value : Nat) (arrival : Nat) (fields : Tbl Nat)
  | throttle (h : Hub) (code : BitVec 3)
  deriving DecidableEq, Repr

/-- A gate: region links, TCMD instances and always-on indications are dual (R356). -/
inductive Gate where
  | region (r : Fin 8)
  | tcmd
  | always
  deriving DecidableEq, Repr

/-- An item in a gate with each hub's stamp (R355). -/
structure GateItem where
  gate  : Gate
  idx   : Nat
  item  : Item
  stA   : Option Nat
  stB   : Option Nat
  /-- The hub missed the item and dropped its own copy (R357). -/
  missA : Bool
  missB : Bool
  deriving DecidableEq, Repr

/-- Redundancy (R353 to R383). -/
structure Red where
  hubA     : HubRed
  hubB     : HubRed
  /-- Hub that holds the active role, and the one that holds the drive enable. -/
  active   : Hub
  drive    : Option Hub
  lockstep : Bool
  /-- Last step whose digests were equal (R364). -/
  lastEq   : Nat
  /-- Own digests per step, and the partner's as received. -/
  digOwn   : List (Nat × BitVec 32)
  digPart  : List (Nat × BitVec 32)
  gates    : List GateItem
  /-- Items stamped so far per gate and hub, keyed by a gate code. -/
  cntA     : Tbl Nat
  cntB     : Tbl Nat
  /-- A switch-over in progress: the step that began with its judgement (R368). -/
  switchAt : Option Nat
  switches : Nat
  lastSwitch : Nat
  lastCause : Nat
  silentA  : Bool
  silentB  : Bool
  stileUp  : Bool
  /-- DRIVEHELD: the enable is held by the partner (R367). -/
  held     : Bool
  /-- FIFOs in reset (R381), as hub and FIFO. -/
  fifoReset : List (Hub × Fifo)
  deriving DecidableEq, Repr

/-- A command ring at SEED (R194). -/
def CmdRing.init : CmdRing where
  sqbase := 0
  cqbase := 0
  en := false
  vec := 0
  cqlog := 0
  sqlog := 0
  sqtail := 0
  cqhead := 0
  run := false
  err := false
  sqhead := 0
  cqtail := 0
  phase := true
  cmd := none

/-- A data ring at SEED: IMOD 100 (R280). -/
def DataRing.init : DataRing where
  dbase := 0
  ebase := 0
  en := false
  compact := false
  ro := false
  vec := 0
  elog := 0
  dlog := 0
  icnt := 0
  imod := 100
  run := false
  err := false
  stall := false
  dprod := 0
  dcons := 0
  etail := 0
  econs := 0
  seqnext := 0
  since := 0
  timer := none
  lost := 0

/-- An endpoint with its PERST held. -/
def Endpoint.init : Endpoint where
  perst := false
  linkUp := false
  wired := false
  speed := 0
  width := 0
  cfg := []
  bme := false
  msix := false
  masked := false
  vectors := []
  pba := 0
  off := false
  d3hot := false
  aspmL1 := false
  aspmL12 := false
  lstate := 0
  aer := 0
  seedwr := 0
  scratch := 0
  stepHi := 0
  cause := 0
  clkreq := false

/-- The host interface at SEED: EVMASK 0xF (R485). -/
def Pcie.init : Pcie where
  rings := []
  dataRings := []
  select := 0
  epA := Endpoint.init
  epB := Endpoint.init
  cause := 0
  mask := 0xF
  touched := false
  fetched := 0
  svc := []
  outQ := []
  replay := []
  acked := 0
  out := []
  peak := 0

/-- Built-in presets of a Fodafort lane (R305). -/
def Lane.init : Lane where
  pre := 2
  post := 8
  amp := 10
  ctle := 8
  dfe1 := 0
  word := none
  conv := false
  rsp := 0

/-- A port copy that no program claims. -/
def PortCopy.init : PortCopy where
  st := .off
  rate := 0
  cap := 2
  lanes := []
  wait := 1
  downSaid := false
  roleSaid := false
  wired := false
  idle := false
  quiet := false
  marker := 0
  markerKnown := false
  txMarker := 0
  badSeq := 0
  fresh := true
  partner := 0
  partnerRole := 0

/-- A port at reset. -/
def Port.init : Port where
  copyA := PortCopy.init
  copyB := PortCopy.init
  txseq := 1
  rxseq := 0
  ackDue := false
  paused := false
  unacked := []
  primBytes := 0
  rx := none
  pauseOut := false
  syncId := 0
  exch := none
  last := []
  cand := none

/-- Fodafort at reset. -/
def Foda.init : Foda := ⟨[], [], [], 0⟩

/-- A TOUT generator at reset: stopped, inactive level. -/
def ToutGen.init : ToutGen where
  en := false
  start := 0
  period := 0
  width := 1
  pin := false
  pol := false
  evt := false
  count := 0
  next := 0
  made := 0
  level := false
  trail := none
  wait := none

/-- Nominal INCR, 6.25 × 2^32 (R330). -/
def incrNominal : Nat := 26843545600

/-- Time-service words at SEED: PRIO 128, SYNCLOG 3, ANNLOG 7, SERVO 0 (R337). -/
def tsw0AtSeed : BitVec 64 := 0x8037000000000000

/-- The time service at the end of hub reset (R329). -/
def TimeSvc.init : TimeSvc where
  sec := 0
  v := 0
  incr := incrNominal
  incrDue := none
  stepDue := none
  marks := []
  w0 := tsw0AtSeed
  w1 := 0
  w2 := 0
  slave := none
  own := false
  win := none
  gens := []
  servoF := 0
  servoAcc := 0
  offsets := []
  miss := 0

/-- No stamps. -/
def TallySums.zero : TallySums := ⟨0, 0, 0, 0, 0, 0, 0, 0, 0⟩

/-- A tally unit at reset. -/
def Tally.init : Tally where
  setup := none
  nextSetup := none
  readySl := 0
  opened := false
  closed := false
  openAt := 0
  sums := TallySums.zero
  hold := false
  gseq := 0
  result := none
  stamps := []
  pulses := []
  hits := []
  baseRef := none
  base := []
  resid := []

/-- A hub at power-on. -/
def HubRed.init (r : Role) : HubRed where
  role := r
  errs := []
  fails := []
  attempts := 0
  failPhase := 0
  joinPhase := 0
  joinSeq := none
  eligAt := none
  dead := false

/-- The pair at power-on: hub A is active after bring-up (R376, R435). -/
def Red.init : Red where
  hubA := HubRed.init .active
  hubB := HubRed.init .eligible
  active := .a
  drive := some .a
  lockstep := false
  lastEq := 0
  digOwn := []
  digPart := []
  gates := []
  cntA := []
  cntB := []
  switchAt := none
  switches := 0
  lastSwitch := 0
  lastCause := 0
  silentA := false
  silentB := false
  stileUp := true
  held := false
  fifoReset := []

end Sys2Proof.Machine
end

