-- ==== Sys2Proof/Machine/ServTypes.lean ====
section
/-!
DEFINITION. The state of the environmental monitor, the thermal supervisor, the safety loops, the loop engine, Hayward, and of
the node as a whole: mode, power state, node program, claims and scripts.
-/

namespace Sys2Proof.Machine

/-- Phase of a monitor entry (R389). -/
inductive MonPhase where
  | brk | discharge | settle | convert
  deriving DecidableEq, Repr

/-- A monitor entry in progress (R389, R395): injected or regular, entry number, phase. -/
structure MonRun where
  inj   : Bool
  entry : Nat
  phase : MonPhase
  deriving DecidableEq, Repr

/-- A latest monitor result (R400, R452). -/
structure MonResult where
  stat  : Nat
  value : Int
  /-- Always-on cycles at which it was formed. -/
  at_   : Nat
  deriving DecidableEq, Repr

/-- The monitoring front end (R384 to R400). -/
structure Monitor where
  header  : BitVec 64
  diode   : BitVec 64
  /-- Regular and injected entries in force (R393). -/
  regular : Tbl (BitVec 64)
  injected : Tbl (BitVec 64)
  /-- Block written: regular entries wait for the next pass, injected ones for the next trigger (R385). -/
  regWait : Option (BitVec 64 × BitVec 64 × Tbl (BitVec 64))
  injWait : Option (Tbl (BitVec 64))
  /-- A pass is in progress; next regular entry of the pass. -/
  pass    : Bool
  next    : Nat
  cur     : Option MonRun
  /-- Regular entry abandoned for an injected run or a pause (R395, R396). -/
  abandoned : Option Nat
  /-- Trigger of the injected run in progress and the entries it still converts. -/
  trig    : Option Nat
  todo    : List Nat
  pending : List Nat
  /-- BLANK pause (R396): BLANK high, and guard running. -/
  blank   : Bool
  pause   : Bool
  excOpen : Bool
  excSaid : Bool
  results : Tbl (Option MonResult)
  injResults : Tbl (Option MonResult)
  /-- ADC rotation over 5 slices (R391). -/
  offline : Nat
  pairs   : PairSums
  mismatch : Nat
  /-- Corrections applied since the last CALQ entry (R456). -/
  calq    : Applied
  /-- Corrections of the five slices (R391). -/
  slices  : Tbl AdcSlice
  /-- Slice timing in force, and the timing that each hub's band selects for its next rotation step (R31). -/
  mtime   : BitVec 32
  mtimeWait : BitVec 32
  mtimeWaitB : BitVec 32
  conversions : Nat
  /-- Triggers raised and not yet in the monitor and loop domain (R398). -/
  arriving : List Nat
  deriving DecidableEq, Repr

/-- Thermal supervisor of the always-on domain (R30, R401 to R406). -/
structure Thermal where
  /-- Readings in quarter degrees, 40 sensors: die × 4 + sensor; hub A is die 0, FE dies 1 to 8, hub B die 9. -/
  read    : Tbl (Option Int)
  faulty  : BitVec 40
  bands   : Tbl (BitVec 3)
  bandsSet : Bool
  alarmA  : Bool
  alarmB  : Bool
  levelA  : Nat
  levelB  : Nat
  /-- Larger level of the two as delivered by the gate (R358, R403). -/
  level   : Nat
  /-- Evaluations at each level, for QUERY (R410). -/
  atLevel : Tbl Nat
  /-- Trip record: die, sensors, voted temperatures in quarter degrees (R405). -/
  record  : Option (Nat × BitVec 4 × List Int)
  recordNew : Bool
  /-- Always-on cycle counts of the trips in the past hour (R406). -/
  trips   : List Nat
  latch   : Bool
  /-- Evaluation from which every voted temperature has stayed below 95 °C in TRIPPED (R406). -/
  cool    : Option Nat
  xtal    : Bool
  deriving DecidableEq, Repr

/-- One safety current loop (R408, R409). -/
structure Loop420 where
  word : BitVec 64
  /-- Set and measured current in 1/256 mA. -/
  set_ : Nat
  meas : Nat
  openSaid : Bool
  deriving DecidableEq, Repr

/-- Fault causes of a loop (R420). -/
inductive LoopFault where
  | follow | fbloss | frozen
  deriving DecidableEq, Repr

/-- One loop of the loop engine (R411 to R430). -/
structure LoopSt where
  w0 : BitVec 64
  w1 : BitVec 64
  w2 : BitVec 64
  w3 : BitVec 64
  w4 : BitVec 64
  /-- A written block that waits for the next period (W0 to W3) and for the next PWM period (W3, W4) (R412). -/
  wait     : Option (BitVec 64 × BitVec 64 × BitVec 64 × BitVec 64)
  waitPwm  : Option (BitVec 64 × BitVec 64)
  /-- Starting: no valid sample yet (R419). -/
  starting : Bool
  ramp     : Int
  trim     : Int
  centre   : Int
  /-- Sample delivered in this period: value and flag. -/
  sample   : Option (Int × Bool)
  last     : Int
  /-- Raw value of the previous period in which the output changed (R420). -/
  frozenRef : Option Int
  changes  : Nat
  follow   : Nat
  lostRow  : Nat
  frozen   : Nat
  fault    : Option LoopFault
  out      : Bool
  /-- Output may not change before LDG_HOLD_END (R414). -/
  hold     : Bool
  onPhase  : Bool
  scale    : Nat
  /-- Off by derating, off by LAMPNTC (R425). -/
  offHot   : Bool
  offNtc   : Bool
  /-- SCALE and off states that wait for the next PWM period (R425). -/
  scaleWait : Option (Nat × Bool × Bool)
  /-- TOUT events whose windows are still to open, and windows open and not yet closed (R426). -/
  due      : Nat
  opens    : Nat
  /-- Share of the last period's counting cycles with the output on (R417). -/
  dutyOn   : Nat
  dutyAll  : Nat
  lastCycles : Nat
  deriving DecidableEq, Repr

/-- An event word on its way to Hayward (R453, R454). -/
structure EvWord where
  code   : Nat
  sev    : Nat
  origin : Nat
  args   : List (BitVec 64)
  /-- Node time when the event passed its gate: seconds, and ns in units of 2^-32 ns. -/
  sec    : Nat
  v      : Nat
  deriving DecidableEq, Repr

/-- A 32-byte event entry, without its CRC, which `Event.bytes` computes (R453). -/
structure EvEntry where
  seq    : BitVec 32
  code   : Nat
  sev    : Nat
  origin : Nat
  cont   : Bool
  sec    : Nat
  ns     : Nat
  sub    : Nat
  arg    : BitVec 64
  deriving DecidableEq, Repr

/-- A control record of the flash (R460). -/
structure CtlRecord where
  rseq     : BitVec 32
  pref     : Bool
  trial    : Nat
  verA     : Bool
  verB     : Bool
  versA    : BitVec 32
  versB    : BitVec 32
  deriving DecidableEq, Repr

/-- One hub's flash and OTP (R459 to R468). -/
structure Store where
  rec0   : Option CtlRecord
  rec1   : Option CtlRecord
  slotA  : List Byte
  slotB  : List Byte
  /-- Persistent log, oldest first; each entry with whether its page was programmed whole. -/
  log    : List EvEntry
  /-- OTP rows (R465). -/
  rows   : Tbl (BitVec 32)
  deriving DecidableEq, Repr

/-- Hayward (R450 to R470). -/
structure Hayward where
  up      : Bool
  fifo    : List EvWord
  ring    : List EvEntry
  /-- Entries of the ring that the host has not read. -/
  unread  : Nat
  evlost  : Nat
  nextSeq : BitVec 32
  /-- Log entries waiting to be programmed (R458). -/
  batch   : List EvEntry
  /-- Rate limit: the second in force, entries per code, suppressed per code. -/
  curSec  : Nat
  logged  : Tbl Nat
  supp    : Tbl Nat
  storeA  : Store
  storeB  : Store
  /-- Running slot and version. -/
  slot    : Bool
  version : BitVec 32
  /-- The page of the log that both flashes are programming. -/
  page    : List EvEntry
  /-- The firmware restarts at the next step boundary. -/
  restart : Bool
  /-- ACTIVATE waits for TRIAL = 0. -/
  activating : Option Src
  fellBack : Bool
  staged  : Option Bool
  /-- Latest values that Hayward read, with the node time of WAIT, keyed by row of R452 × 4096 + index. -/
  values  : Tbl (Int × Nat)
  /-- Epochs since the last CALQ summary (R456). -/
  calqEpochs : Nat
  /-- FLASHFAIL events of each hub (R459). -/
  failsA  : Nat
  failsB  : Nat
  deriving DecidableEq, Repr

/-- A claim (R172): type, index, user, parameter. -/
structure Claim where
  type  : Nat
  index : Nat
  user  : Nat
  param : Nat
  deriving DecidableEq, Repr

/-- A program's image, as the loader checked it (R170, R171, R183). -/
structure Program where
  bytes   : List Byte
  slot    : Bool
  entry   : BitVec 32
  swdog   : Nat
  progver : BitVec 16
  claims  : List Claim
  /-- Code section bytes. -/
  code    : List Byte
  /-- Mode-script section. -/
  scripts : List Byte
  /-- Sizes of the tables held, by table ID, and the attributes of gleaner tables. -/
  sizes   : Tbl Nat
  attrs   : Tbl (BitVec 32)
  deriving DecidableEq, Repr

/-- A mode script in progress (R185). -/
structure Script where
  src   : Src
  /-- Steps of the script and index of the step in progress. -/
  steps : List (BitVec 128)
  idx   : Nat
  cmd   : Option Cmd
  /-- The MODE is to SAFE (R440). -/
  toSafe : Bool
  deriving DecidableEq, Repr

/-- The node as a whole. -/
structure NodeCtl where
  pwrgd   : Bool
  tripped : Bool
  mode    : Mode
  pstate  : PState
  /-- Self-test finished (R432), program in force (R182). -/
  stdone  : Bool
  otpRead : Bool
  claims  : List Claim
  /-- Run-time claims and OTP-default claims (R23, R173). -/
  rtClaims : List Claim
  otpClaims : List Claim
  prog    : Option Program
  script  : Option Script
  nodeId  : BitVec 16
  ssvid   : BitVec 16
  ssid    : BitVec 16
  simplex : Bool
  /-- TRIPMODE written at run time (R406), and that of OTP. -/
  tripRt  : Option Bool
  tripOtp : Bool
  reqSig  : Bool
  logSev  : Nat
  thmf    : Bool
  thpin   : Nat
  pkey    : BitVec 384
  maxRate : Nat
  /-- REFCLK declared lost; REFBACK raised since; present at bring-up (R70 to R73). -/
  refLost : Bool
  refBack : Bool
  /-- Tally unit 7 has found REFCLK within ±250 ppm in its latest gate since the loss (R73). -/
  refSeen : Bool
  /-- Realignment in progress (R444): target epoch of the running count, then the new epoch. -/
  realign : Option (BitVec 32)
  newEpoch : Option Nat
  reRun   : Bool
  /-- Run before the power state was left, to resume (R446). -/
  frostAt : Nat
  /-- BLANK as last sampled, with the full coarse time of the last change. -/
  blank   : Bool
  blankAt : Nat
  /-- Test port: the instruction in force on each die of the chain, hub A 0, FE dies 1 to 8, hub B 9; an unlisted die holds
  IDCODE (R481). -/
  jtag    : Tbl JtagOp
  /-- Refresh interval halved, per hub (R31). -/
  refreshA : Bool
  refreshB : Bool
  deriving DecidableEq, Repr

/-- The node's counts of time (R3, R4, R58, R353). -/
structure Clock where
  epoch   : BitVec 32
  slice   : BitVec 12
  /-- Epoch actions of the boundary ahead are done. -/
  epochDone : Bool
  step    : Nat
  /-- Tick of the slice in progress at which the step in progress began; 0 when that was in an earlier slice. -/
  tick    : BitVec 12
  /-- Always-on cycles since power-on, in units of one evaluation (5,000 cycles). -/
  evals   : Nat
  /-- How often the 32-bit epoch number has wrapped (R4): the model's own count, so that times held across a wrap keep their
  order. -/
  era     : Nat
  deriving DecidableEq, Repr

/-- The memories a gleaner addresses (R146): bytes that differ from zero, and the poison tags of 32-bit words (R168). Local
memory of gleaner g at g × 0x1_0000, cluster data of cluster c at 0x100_0000 + c × 0x8_0000, hub shared at 0x200_0000. -/
structure GMem where
  bytes : List Host.Cell
  tags  : Tbl Bool
  /-- 32-bit words of received words held for replay, per hub and stage: replays so far (R28). -/
  replays : Tbl Nat
  deriving DecidableEq, Repr

/-- A monitor at SEED (R386). -/
def Monitor.init : Monitor where
  header := 0
  diode := 0x8106008106000000
  regular := []
  injected := []
  regWait := none
  injWait := none
  pass := false
  next := 0
  cur := none
  abandoned := none
  trig := none
  todo := []
  pending := []
  blank := false
  pause := false
  excOpen := false
  excSaid := false
  results := []
  injResults := []
  offline := 4
  pairs := PairSums.zero
  mismatch := 0
  calq := Applied.zero
  slices := []
  mtime := 0
  mtimeWait := 0
  mtimeWaitB := 0
  conversions := 0
  arriving := []

/-- The thermal supervisor before its first evaluation. -/
def Thermal.init : Thermal where
  read := []
  faulty := 0
  bands := []
  bandsSet := false
  alarmA := false
  alarmB := false
  levelA := 0
  levelB := 0
  level := 0
  atLevel := []
  record := none
  recordNew := false
  trips := []
  latch := false
  cool := none
  xtal := true

/-- Loop settings word at SEED: LO 0, HI 8,000 (R408). -/
def loopWordAtSeed : BitVec 64 := BitVec.ofNat 64 (8000 * 2 ^ 23)

/-- A safety loop at 3.5 mA (R409). -/
def Loop420.init : Loop420 := ⟨loopWordAtSeed, 896, 896, false⟩

/-- A loop at SEED: PER 10, FETIME 16, PWMPER 8,000, GDLY 128 (R413). -/
def LoopSt.init : LoopSt where
  w0 := BitVec.ofNat 64 (10 * 2 ^ 34)
  w1 := 0
  w2 := 0
  w3 := BitVec.ofNat 64 (16 * 2 ^ 56 + 8000 * 2 ^ 24)
  w4 := BitVec.ofNat 64 (128 * 2 ^ 40)
  wait := none
  waitPwm := none
  starting := false
  ramp := 0
  trim := 0
  centre := 0
  sample := none
  last := 0
  frozenRef := none
  changes := 0
  follow := 0
  lostRow := 0
  frozen := 0
  fault := none
  out := false
  hold := false
  onPhase := false
  scale := 65536
  offHot := false
  offNtc := false
  scaleWait := none
  due := 0
  opens := 0
  dutyOn := 0
  dutyAll := 0
  lastCycles := 0

/-- Flash and OTP with nothing written. -/
def Store.init : Store := ⟨none, none, [], [], [], []⟩

/-- Hayward before boot. -/
def Hayward.init : Hayward where
  up := false
  fifo := []
  ring := []
  unread := 0
  evlost := 0
  nextSeq := 0
  batch := []
  curSec := 0
  logged := []
  supp := []
  storeA := Store.init
  storeB := Store.init
  slot := false
  version := 0
  page := []
  restart := false
  activating := none
  fellBack := false
  staged := none
  values := []
  calqEpochs := 0
  failsA := 0
  failsB := 0

/-- The node right after the start of a power-on reset: SEED in ACTIVE (R431). -/
def NodeCtl.init : NodeCtl where
  pwrgd := true
  tripped := false
  mode := .seed
  pstate := .active
  stdone := false
  otpRead := false
  claims := []
  rtClaims := []
  otpClaims := []
  prog := none
  script := none
  nodeId := 0
  ssvid := 0x1F3B
  ssid := 0
  simplex := false
  tripRt := none
  tripOtp := false
  reqSig := false
  logSev := 1
  thmf := false
  thpin := 0
  pkey := 0
  maxRate := 0
  refLost := false
  refBack := false
  refSeen := false
  realign := none
  newEpoch := none
  reRun := false
  frostAt := 0
  blank := false
  blankAt := 0
  jtag := []
  refreshA := false
  refreshB := false

/-- Epoch 0 begins at the end of hub reset (R432). -/
def Clock.init : Clock := ⟨0, 0, false, 0, 0, 0, 0⟩

end Sys2Proof.Machine
end

