-- ==== Sys2Proof/Machine/State.lean ====
section
/-!
DEFINITION. The state of the PQN-4096 node as plain data, the reasons a step can stop, and the state right after reset.
-/

namespace Sys2Proof.Machine

/-- The whole node. Indexed parts are sparse tables whose unlisted entries hold the value right after reset. -/
structure State where
  /-- Commands that wait, first in, first out. -/
  pending  : List Instr
  node     : NodeCtl
  clock    : Clock
  /-- FE dies 0 to 7, channel cells and channel TDCs 0 to 4,095, blocks 0 to 63 (R2). -/
  fes      : Tbl Fe
  cells    : Tbl Cell
  tdcs     : Tbl ChanTdc
  blocks   : Tbl Block
  /-- Messages on the control lane of each region link, keyed by die × 2 + link (R105). -/
  lanes    : Tbl (List LaneMsg)
  core     : HubCore
  gmem     : GMem
  /-- Bytes of each table in force, keyed by table ID (R174), and of the code area under ID 0x100. -/
  tables   : Tbl (List Host.Cell)
  ring     : Ring
  /-- The split-write windows of hub A and hub B (R224, R225). -/
  window   : Window
  windowB  : Window
  trig     : Trigger
  /-- The four balers, and the jobs that wait for one, oldest first (R253). -/
  balers   : Tbl Baler
  jobs     : List Job
  pcie     : Pcie
  foda     : Foda
  time     : TimeSvc
  tallies  : Tbl Tally
  red      : Red
  mon      : Monitor
  thermal  : Thermal
  loopA    : Loop420
  loopB    : Loop420
  /-- The eight loops of the loop engine. -/
  loops    : Tbl LoopSt
  hay      : Hayward
  /-- The figures read by QUERY: 32-bit saturating counters by figure code and index (R114, R142, R227, R250, R271, R296,
  R327, R352, R383, R410, R430). -/
  counters : Tbl Nat
  /-- The model's own count of free values taken so far; the manual names no such thing. -/
  free     : Nat
  deriving DecidableEq, Repr

/-- Why the node stops. No command of this model stops, so the type is empty. -/
inductive Fault where
  deriving DecidableEq, Repr

/-- Why a command is refused. -/
inductive Refusal where
  /-- The command has no meaning in this model yet; raised only by an arm of the dispatch, which is safe. -/
  | notModelled (mnemonic : String)
  deriving DecidableEq, Repr

/-- The node right after a power-on reset (R431) with both flashes and OTPs blank: neither hub finds a valid image, so each
stays in SEED (R433). -/
def State.reset : State where
  pending := []
  node := NodeCtl.init
  clock := Clock.init
  fes := []
  cells := []
  tdcs := []
  blocks := []
  lanes := []
  core := HubCore.init
  gmem := ⟨[], [], []⟩
  tables := []
  ring := Ring.init
  window := Window.init
  windowB := Window.init
  trig := Trigger.init
  balers := []
  jobs := []
  pcie := Pcie.init
  foda := Foda.init
  time := TimeSvc.init
  tallies := []
  red := { Red.init with hubA := { Red.init.hubA with dead := true }, hubB := { Red.init.hubB with dead := true } }
  mon := Monitor.init
  thermal := Thermal.init
  loopA := Loop420.init
  loopB := Loop420.init
  loops := []
  hay := Hayward.init
  counters := []
  free := 0

end Sys2Proof.Machine
end

