-- ==== Sys2Proof/Machine/Events.lean ====
section
/-!
DEFINITION. The event kinds of R455: their codes, severities and the bits of WAIT that they set.
-/

namespace Sys2Proof.Machine

/-- The event kinds of R455. -/
inductive Ev where
  | setfix | mapfix | injskip | fiforst | drrst | fence | unfence | band | reflost | refwin | refback
  | timegap | timemaster | toutlate | toutgap | tcmdnolock | tcmdsw | tcmdlost | gfence | sheaflost | nostream
  | balerjob | balerfail | mempoison | tspoison | dirfix | scrub | chkfail | memcfg | ffup | ffdown | ffrole
  | ffalign | ffnoack | pciedown | switch | diverge | divrepeat | joinfail | warm | driveheld | stilelost
  | hubsilent | gatemiss | memlate | stepskew | clkloss | rlink | thermalarm | sensfault | excopen | loopfault
  | loopopen | trip | throttle | railfault | lfault | lampntc | mode | conflict | evlost | progevt | progmail
  | fwboot | fwfallback | fwcommit | arburn | otpgen | otpfail | otpdiff | flashfail | nodeidunset | calq
  | fwwdog | logsupp
  deriving DecidableEq, Repr

/-- Event codes (R455). -/
def Ev.code : Ev → Nat
  | .setfix => 0x1001
  | .mapfix => 0x1002
  | .injskip => 0x1003
  | .fiforst => 0x1004
  | .drrst => 0x1005
  | .fence => 0x1006
  | .unfence => 0x1007
  | .band => 0x1008
  | .reflost => 0x2001
  | .refwin => 0x2002
  | .refback => 0x2003
  | .timegap => 0x2004
  | .timemaster => 0x2005
  | .toutlate => 0x2006
  | .toutgap => 0x2007
  | .tcmdnolock => 0x2008
  | .tcmdsw => 0x2009
  | .tcmdlost => 0x200A
  | .gfence => 0x3001
  | .sheaflost => 0x3002
  | .nostream => 0x3003
  | .balerjob => 0x3004
  | .balerfail => 0x3005
  | .mempoison => 0x4001
  | .tspoison => 0x4002
  | .dirfix => 0x4003
  | .scrub => 0x4004
  | .chkfail => 0x4005
  | .memcfg => 0x4006
  | .ffup => 0x5001
  | .ffdown => 0x5002
  | .ffrole => 0x5003
  | .ffalign => 0x5004
  | .ffnoack => 0x5005
  | .pciedown => 0x5006
  | .switch => 0x6001
  | .diverge => 0x6002
  | .divrepeat => 0x6003
  | .joinfail => 0x6004
  | .warm => 0x6005
  | .driveheld => 0x6006
  | .stilelost => 0x6007
  | .hubsilent => 0x6008
  | .gatemiss => 0x6009
  | .memlate => 0x600A
  | .stepskew => 0x600B
  | .clkloss => 0x600C
  | .rlink => 0x600D
  | .thermalarm => 0x7001
  | .sensfault => 0x7002
  | .excopen => 0x7003
  | .loopfault => 0x7004
  | .loopopen => 0x7005
  | .trip => 0x7006
  | .throttle => 0x7007
  | .railfault => 0x7008
  | .lfault => 0x8001
  | .lampntc => 0x8002
  | .mode => 0x9001
  | .conflict => 0x9002
  | .evlost => 0x9003
  | .progevt => 0x9004
  | .progmail => 0x9005
  | .fwboot => 0x9006
  | .fwfallback => 0x9007
  | .fwcommit => 0x9008
  | .arburn => 0x9009
  | .otpgen => 0x900A
  | .otpfail => 0x900B
  | .otpdiff => 0x900C
  | .flashfail => 0x900D
  | .nodeidunset => 0x900E
  | .calq => 0x900F
  | .fwwdog => 0x9010
  | .logsupp => 0x9011

/-- Severities: 0 INFO, 1 NOTICE, 2 WARNING, 3 ERROR, 4 CRITICAL (R453, R455). -/
def Ev.sev : Ev → Nat
  | .setfix | .injskip | .unfence | .refback | .timegap | .timemaster | .warm | .mode | .fwboot
  | .fwcommit | .arburn | .otpgen => 1
  | .mapfix | .fiforst | .drrst | .refwin | .toutlate | .toutgap | .tcmdsw | .nostream | .balerjob
  | .dirfix | .scrub | .ffdown | .ffrole | .ffalign | .ffnoack | .throttle | .lampntc | .conflict
  | .evlost | .otpdiff | .nodeidunset | .logsupp => 2
  | .fence | .reflost | .tcmdnolock | .tcmdlost | .gfence | .sheaflost | .balerfail | .mempoison
  | .tspoison | .pciedown | .diverge | .gatemiss | .memlate | .rlink | .sensfault | .excopen
  | .loopfault | .loopopen | .lfault | .fwfallback | .otpfail | .flashfail | .fwwdog => 3
  | .band | .ffup | .progevt | .progmail | .calq => 0
  | .chkfail | .memcfg | .switch | .divrepeat | .joinfail | .driveheld | .stilelost | .hubsilent
  | .stepskew | .clkloss | .thermalarm | .trip | .railfault => 4

/-- The bit of WAIT SUB 2 that an event of this kind sets (R190). -/
def Ev.waitBit : Ev → Option Nat
  | .fence => some 5
  | .unfence => some 6
  | .band => some 18
  | .reflost => some 3
  | .refback => some 4
  | .timegap => some 19
  | .timemaster => some 7
  | .tcmdsw | .tcmdlost => some 16
  | .gfence => some 15
  | .ffup => some 8
  | .ffdown => some 9
  | .switch => some 1
  | .diverge => some 11
  | .warm => some 10
  | .thermalarm => some 2
  | .lfault => some 17
  | .mode => some 0
  | .progevt => some 12
  | _ => none


end Sys2Proof.Machine
end

