-- ==== Sys2Proof/Machine/Ops.lean ====
section
/-!
DEFINITION. The named operations that the meanings share: bit fields, bytes and CRC, access to the indexed parts of State,
time, sparse memory, counters, events, interrupts, outputs and free values.
-/

namespace Sys2Proof.Machine

/-- Bits [lo + len − 1 : lo] of a number (R8). -/
def bitsAt (x lo len : Nat) : Nat :=
  (x >>> lo) % 2 ^ len

/-- Bit i of a number. -/
def bitAt (x i : Nat) : Bool :=
  bitsAt x i 1 == 1

/-- Two's complement of a w-bit number. -/
def signed (w x : Nat) : Int :=
  if bitAt x (w - 1) then (x % 2 ^ w : Nat) - (2 ^ w : Nat) else (x % 2 ^ w : Nat)

/-- The w-bit two's complement pattern of an integer. -/
def unsigned (w : Nat) (x : Int) : Nat :=
  (x % (2 ^ w : Nat)).toNat

/-- Little-endian bytes of a number (R8). -/
def leBytes : Nat → Nat → List Byte
  | 0, _ => []
  | n + 1, x => BitVec.ofNat 8 x :: leBytes n (x >>> 8)

/-- The number that little-endian bytes spell (R8). -/
def leNat : List Byte → Nat
  | [] => 0
  | b :: bs => b.toNat + 256 * leNat bs

/-- `n` bytes from an offset, as a number; bytes past the end read 0. -/
def leAt (bs : List Byte) (off n : Nat) : Nat :=
  leNat ((bs.drop off).take n)

/-- One bit step of the reflected CRC-32C, polynomial 0x1EDC6F41 (R165). -/
def crcBit (c : Nat) : Nat :=
  if c % 2 = 1 then (c >>> 1) ^^^ 0x82F63B78 else c >>> 1

/-- CRC-32C over one byte, without inversion (R165). -/
def crcByte (c : Nat) (b : Byte) : Nat :=
  crcBit (crcBit (crcBit (crcBit (crcBit (crcBit (crcBit (crcBit (c ^^^ b.toNat))))))))

/-- CRC-32C over bytes, without inversion (R165). -/
def crcRaw (c : Nat) (bs : List Byte) : Nat :=
  bs.foldl crcByte c

/-- CRC-32C with initial and final inversion. -/
def crc32c (bs : List Byte) : Nat :=
  crcRaw 0xFFFFFFFF bs ^^^ 0xFFFFFFFF

/-- A word with its parity bit is good when the ones in the 33 bits are odd in number (R27). -/
def parityOk (w : BitVec 32) (p : Bool) : Bool :=
  ((List.range 32).foldl (fun b i => b ^^ w.getLsbD i) p)

/-- The odd-parity bit that a stage gives a word (R27). -/
def parityBit (w : BitVec 32) : Bool := !parityOk w false

/-- What arrives of a word and its parity bit when some of the 33 bits, the parity bit the highest, are flipped. -/
def arrivesOk (w : BitVec 32) (err : BitVec 33) : Bool := parityOk (w ^^^ err.setWidth 32) (parityBit w ^^ err.getLsbD 32)

/-- Codes of the bands B0 to B4 (R16): neighbours differ in one bit. -/
def bandCode (b : Nat) : BitVec 3 := ([0, 1, 3, 2, 6] : List (BitVec 3)).getD b 6

/-- The band of a code. -/
def bandOf (c : BitVec 3) : Nat := ((List.range 5).find? (fun b => bandCode b == c)).getD 4

/-- The 3-bit reflected Gray code of a throttle level (R16). -/
def levelCode (n : Nat) : BitVec 3 := let x := BitVec.ofNat 3 n; x ^^^ (x >>> 1)

/-- The level of a code. -/
def levelOfCode (c : BitVec 3) : Nat := (c ^^^ (c >>> 1) ^^^ (c >>> 2)).toNat

/-- Whether `a` is later than `b` modulo 2^w (R25). -/
def laterMod (w a b : Nat) : Bool :=
  let d := (a + 2 ^ w - b % 2 ^ w) % 2 ^ w
  decide (1 ≤ d) && decide (d < 2 ^ (w - 1))

/-- Whether `a` equals `b` or is later, modulo 2^w (R25, R189). -/
def reachedMod (w a b : Nat) : Bool :=
  decide ((a + 2 ^ w - b % 2 ^ w) % 2 ^ w < 2 ^ (w - 1))

/-- Apply a function to every listed entry of a table, dropping those that become the default. -/
def Tbl.mapAll {α : Type} [DecidableEq α] (d : α) (f : Nat → α → α) (t : Tbl α) : Tbl α :=
  t.filterMap (fun p => if f p.1 p.2 = d then none else some (p.1, f p.1 p.2))

/-- Half away from zero division to the nearest integer, for a positive divisor. -/
def roundDiv (a : Int) (b : Nat) : Int :=
  if a < 0 then -(((-a) * 2 + b) / (2 * b)) else (a * 2 + b) / (2 * b)

/-- A quotient where no rule says how it rounds: exact where it is whole, else one of its two neighbours. -/
def openDiv (place : Nat) (a : Int) (b : Nat) : Int :=
  if a % b = 0 then a / b else if Config.roundsUp place a b then a / b + 1 else a / b

/-- The square root of a quotient where no rule says how it rounds: exact where it is whole, else one of its two neighbours. -/
def openSqrt (place n d : Nat) : Nat :=
  let r := Nat.sqrt (n / d)
  if r * r * d = n then r else if Config.roundsUp place n d then r + 1 else r

/-- Limit an integer to a range. -/
def clampInt (lo hi x : Int) : Int :=
  if x < lo then lo else if hi < x then hi else x

/-! ### The indexed parts of State -/

def State.fe (s : State) (d : Nat) : Fe := Tbl.get Fe.init s.fes d

def State.setFe (s : State) (d : Nat) (f : Fe) : State := { s with fes := Tbl.set Fe.init s.fes d f }

def State.modFe (s : State) (d : Nat) (g : Fe → Fe) : State := s.setFe d (g (s.fe d))

def State.cell (s : State) (ch : Nat) : Cell := Tbl.get Cell.init s.cells ch

def State.setCell (s : State) (ch : Nat) (c : Cell) : State := { s with cells := Tbl.set Cell.init s.cells ch c }

def State.modCell (s : State) (ch : Nat) (g : Cell → Cell) : State := s.setCell ch (g (s.cell ch))

def State.tdc (s : State) (ch : Nat) : ChanTdc := Tbl.get ChanTdc.init s.tdcs ch

def State.setTdc (s : State) (ch : Nat) (c : ChanTdc) : State := { s with tdcs := Tbl.set ChanTdc.init s.tdcs ch c }

def State.modTdc (s : State) (ch : Nat) (g : ChanTdc → ChanTdc) : State := s.setTdc ch (g (s.tdc ch))

def State.block (s : State) (b : Nat) : Block := Tbl.get Block.init s.blocks b

def State.setBlock (s : State) (b : Nat) (x : Block) : State := { s with blocks := Tbl.set Block.init s.blocks b x }

def State.modBlock (s : State) (b : Nat) (g : Block → Block) : State := s.setBlock b (g (s.block b))

/-- Messages waiting on the control lane of a link (R105). -/
def State.lane (s : State) (die : Nat) (h : Hub) : List LaneMsg := Tbl.get [] s.lanes (die * 2 + h.idx)

def State.setLane (s : State) (die : Nat) (h : Hub) (l : List LaneMsg) : State :=
  { s with lanes := Tbl.set [] s.lanes (die * 2 + h.idx) l }

/-- A link of an FE die. -/
def Fe.link (f : Fe) : Hub → RLink
  | .a => f.linkA
  | .b => f.linkB

def Fe.setLink (f : Fe) (h : Hub) (l : RLink) : Fe :=
  match h with
  | .a => { f with linkA := l }
  | .b => { f with linkB := l }

def State.link (s : State) (die : Nat) (h : Hub) : RLink := (s.fe die).link h

def State.setLink (s : State) (die : Nat) (h : Hub) (l : RLink) : State := s.modFe die (fun f => f.setLink h l)

def State.modLink (s : State) (die : Nat) (h : Hub) (g : RLink → RLink) : State := s.setLink die h (g (s.link die h))

def State.modCore (s : State) (g : HubCore → HubCore) : State := { s with core := g s.core }

def State.sorter (s : State) (r : Nat) : Sorter := Tbl.get Sorter.init s.core.sorters r

def State.setSorter (s : State) (r : Nat) (x : Sorter) : State :=
  { s with core := { s.core with sorters := Tbl.set Sorter.init s.core.sorters r x } }

def State.modSorter (s : State) (r : Nat) (g : Sorter → Sorter) : State := s.setSorter r (g (s.sorter r))

/-- The ingress FIFO of a region (R115). -/
def State.ingress (s : State) (r : Nat) : List SRec := Tbl.get [] s.core.ingress r

def State.setIngress (s : State) (r : Nat) (l : List SRec) : State :=
  { s with core := { s.core with ingress := Tbl.set [] s.core.ingress r l } }

def State.gleaner (s : State) (g : Nat) : Gleaner := Tbl.get Gleaner.init s.core.gleaners g

def State.setGleaner (s : State) (g : Nat) (x : Gleaner) : State :=
  { s with core := { s.core with gleaners := Tbl.set Gleaner.init s.core.gleaners g x } }

def State.modGleaner (s : State) (g : Nat) (f : Gleaner → Gleaner) : State := s.setGleaner g (f (s.gleaner g))

/-- The deque of a gleaner, head first (R125). -/
def State.deque (s : State) (g : Nat) : List Sheaf := Tbl.get [] s.core.deques g

def State.setDeque (s : State) (g : Nat) (l : List Sheaf) : State :=
  { s with core := { s.core with deques := Tbl.set [] s.core.deques g l } }

def State.cring (s : State) (k : Nat) : CmdRing := Tbl.get CmdRing.init s.pcie.rings k

def State.setCring (s : State) (k : Nat) (r : CmdRing) : State :=
  { s with pcie := { s.pcie with rings := Tbl.set CmdRing.init s.pcie.rings k r } }

def State.dring (s : State) (k : Nat) : DataRing := Tbl.get DataRing.init s.pcie.dataRings k

def State.setDring (s : State) (k : Nat) (r : DataRing) : State :=
  { s with pcie := { s.pcie with dataRings := Tbl.set DataRing.init s.pcie.dataRings k r } }

def State.ep (s : State) : Hub → Endpoint
  | .a => s.pcie.epA
  | .b => s.pcie.epB

def State.setEp (s : State) (h : Hub) (e : Endpoint) : State :=
  match h with
  | .a => { s with pcie := { s.pcie with epA := e } }
  | .b => { s with pcie := { s.pcie with epB := e } }

def State.port (s : State) (p : Nat) : Port := Tbl.get Port.init s.foda.ports p

def State.setPort (s : State) (p : Nat) (x : Port) : State :=
  { s with foda := { s.foda with ports := Tbl.set Port.init s.foda.ports p x } }

def State.modPort (s : State) (p : Nat) (g : Port → Port) : State := s.setPort p (g (s.port p))

/-- A hub's copy of a port. -/
def Port.copy (p : Port) : Hub → PortCopy
  | .a => p.copyA
  | .b => p.copyB

def Port.setCopy (p : Port) (h : Hub) (c : PortCopy) : Port :=
  match h with
  | .a => { p with copyA := c }
  | .b => { p with copyB := c }

def State.gen (s : State) (k : Nat) : ToutGen := Tbl.get ToutGen.init s.time.gens k

def State.setGen (s : State) (k : Nat) (g : ToutGen) : State :=
  { s with time := { s.time with gens := Tbl.set ToutGen.init s.time.gens k g } }

def State.tally (s : State) (u : Nat) : Tally := Tbl.get Tally.init s.tallies u

def State.setTally (s : State) (u : Nat) (t : Tally) : State := { s with tallies := Tbl.set Tally.init s.tallies u t }

def State.loop (s : State) (n : Nat) : LoopSt := Tbl.get LoopSt.init s.loops n

def State.setLoop (s : State) (n : Nat) (l : LoopSt) : State := { s with loops := Tbl.set LoopSt.init s.loops n l }

def State.modLoop (s : State) (n : Nat) (g : LoopSt → LoopSt) : State := s.setLoop n (g (s.loop n))

def State.baler (s : State) (b : Nat) : Baler := Tbl.get Baler.init s.balers b

def State.setBaler (s : State) (b : Nat) (x : Baler) : State := { s with balers := Tbl.set Baler.init s.balers b x }

/-- The redundancy state of a hub. -/
def State.hubRed (s : State) : Hub → HubRed
  | .a => s.red.hubA
  | .b => s.red.hubB

def State.setHubRed (s : State) (h : Hub) (x : HubRed) : State :=
  match h with
  | .a => { s with red := { s.red with hubA := x } }
  | .b => { s with red := { s.red with hubB := x } }

def State.modHubRed (s : State) (h : Hub) (g : HubRed → HubRed) : State := s.setHubRed h (g (s.hubRed h))

def Hayward.store (y : Hayward) : Hub → Store
  | .a => y.storeA
  | .b => y.storeB

def Hayward.setStore (y : Hayward) (h : Hub) (x : Store) : Hayward :=
  match h with
  | .a => { y with storeA := x }
  | .b => { y with storeB := x }

/-! ### When the node runs -/

/-- Outside TRIPPED and with PWRGD high (R6, R475). -/
def State.live (s : State) : Bool := s.node.pwrgd && !s.node.tripped

/-- In power state ACTIVE, outside TRIPPED (R447). -/
def State.awake (s : State) : Bool := s.live && s.node.pstate == .active

/-- A power state in which only NOP, POWER and FENCE are executed (R186). -/
def deepState (p : PState) : Bool := p == .fallow || p == .frost

/-- Apply an effect when a condition holds; otherwise the event cannot occur and nothing changes. -/
def State.when (s : State) (c : Bool) (f : State → State) : State :=
  if c then f s else s

/-! ### Time -/

/-- The epoch with the wraps of its 32-bit number counted in (R4). -/
def State.fullEpoch (s : State) : Nat := s.clock.era * 2 ^ 32 + s.clock.epoch.toNat

/-- The full epoch that a 32-bit epoch number names: of those with that number, the nearest to the epoch in progress (R25). -/
def State.epochNear (s : State) (e : BitVec 32) : Int :=
  (s.fullEpoch : Int) + (e - s.clock.epoch).toInt

/-- The full number of a slice of an epoch that a 32-bit number names (R25, R124). -/
def State.sliceNear (s : State) (e : BitVec 32) (slice : Nat) : Int := s.epochNear e * 4096 + slice

/-- The sheaf sequence number of a full slice number: 44 bits, epoch then slice, wrapping freely (R124). -/
def seqOf (slice : Nat) : Nat := slice % 2 ^ 44

/-- Full slice number, epoch × 4,096 + slice, with the wraps of the epoch number counted in. -/
def State.fullSlice (s : State) : Nat := s.fullEpoch * 4096 + s.clock.slice.toNat

/-- Full coarse time of a tick of the slice in progress, epoch × 2^24 + coarse (R53, R58). -/
def State.coarse (s : State) (tick : BitVec 12) : Nat := s.fullSlice * 4096 + tick.toNat

/-- Full coarse time of the start of the slice in progress. -/
def State.coarse0 (s : State) : Nat := s.fullSlice * 4096

/-- Units of v in one second: 10^9 ns in units of 2^-32 ns (R329). -/
def nsPerSec : Nat := 1000000000 * 2 ^ 32

/-- Node time at a tick of the slice in progress: seconds, and ns in units of 2^-32 ns. A REFCLK period is 8 ticks. -/
def State.nodeTime (s : State) (tick : Nat) : Nat × Nat :=
  let v := s.time.v + tick / 8 * s.time.incr
  (s.time.sec + v / nsPerSec, v % nsPerSec)

/-- Node time at the start of the step in progress. -/
def State.nodeNow (s : State) : Nat × Nat := s.nodeTime s.clock.tick.toNat

/-- The low 64 bits of node time as WAIT compares them: seconds [15:0], ns, sub-ns (R189). -/
def wait64 (sec v : Nat) : Nat :=
  (sec % 65536) * 2 ^ 48 + v / 2 ^ 16

/-- Always-on cycles since power-on (R30: one evaluation every 5,000 cycles). -/
def State.aonCycles (s : State) : Nat := s.clock.evals * 5000

/-! ### Sparse bytes -/

/-- Read a byte; an unlisted address reads 0. -/
def byteAt (m : List Host.Cell) (a : Nat) : Byte := Tbl.get 0 m a

/-- Write a byte, keeping the canonical form. -/
def putByte (m : List Host.Cell) (a : Nat) (b : Byte) : List Host.Cell := Tbl.set 0 m a b

/-- Read n bytes, lowest address first. -/
def bytesAt (m : List Host.Cell) (a n : Nat) : List Byte := (List.range n).map (fun i => byteAt m (a + i))

/-- Read a little-endian number of n bytes (R8). -/
def numAt (m : List Host.Cell) (a n : Nat) : Nat := leNat (bytesAt m a n)

/-- Write bytes at rising addresses. -/
def putBytes (m : List Host.Cell) (a : Nat) : List Byte → List Host.Cell
  | [] => m
  | b :: bs => putBytes (putByte m a b) (a + 1) bs

/-- A table held as bytes from address 0, zero bytes unlisted. -/
def cellsOf (bs : List Byte) : List Host.Cell :=
  (bs.zipIdx.filter (fun p => p.1 ≠ 0)).map (fun p => (p.2, p.1))

/-- Bytes of a table in force (R174). -/
def State.table (s : State) (id : Nat) : List Host.Cell := Tbl.get [] s.tables id

def State.setTable (s : State) (id : Nat) (m : List Host.Cell) : State := { s with tables := Tbl.set [] s.tables id m }

/-- The bytes of the gleaner code area stand beside the tables under this number. -/
def codeTable : Nat := 0x100

/-! ### Counters of QUERY -/

/-- A figure of R193: item, row and quantity of the item's table, the hub it belongs to (0 both), and its index. -/
structure Fig where
  item : Nat
  row  : Nat
  q    : Nat
  hub  : Nat
  idx  : Nat
  deriving DecidableEq, Repr

/-- The key of a figure in the bank of counters. -/
def Fig.key (f : Fig) : Nat :=
  (((f.item * 64 + f.row) * 16 + f.q) * 4 + f.hub) * 65536 + f.idx

/-- The limit of a 32-bit counter (R114, R142, R227). -/
def counterMax : Nat := 0xFFFFFFFF

def State.count (s : State) (f : Fig) : Nat := Tbl.get 0 s.counters f.key

/-- Add to a counter, which saturates at 32 bits (R114, R142, R227). -/
def State.bump (s : State) (f : Fig) (n : Nat := 1) : State :=
  { s with counters := Tbl.set 0 s.counters f.key (min counterMax (s.count f + n)) }

/-- Raise a peak figure to a value. -/
def State.peak (s : State) (f : Fig) (n : Nat) : State :=
  { s with counters := Tbl.set 0 s.counters f.key (max n (s.count f)) }

/-- Index of a figure of the whole hub or node (R193). -/
def whole : Nat := 0xFFFF

/-! ### Free values -/

/-- Take a fresh free value: an open value of the manual, on which no statement may rest. -/
def State.takeFree (s : State) : Nat × State :=
  (Config.freeNat s.free, { s with free := s.free + 1 })

/-- Take a free integer: two free values, one from the other. -/
def State.takeFreeInt (s : State) : Int × State :=
  let a := s.takeFree
  let b := a.2.takeFree
  ((a.1 : Int) - b.1, b.2)

/-! ### Outputs, interrupts and events -/

/-- Hand an output to the transmit domains, tagged with its step (R360, R361). -/
def State.emit (s : State) (o : Out) : State :=
  { s with pcie := { s.pcie with outQ := s.pcie.outQ ++ [(s.clock.step, o)] } }

/-- Send a message on a region link's control lane (R105). -/
def State.say (s : State) (die : Nat) (h : Hub) (m : LaneMsg) : State :=
  s.setLane die h (s.lane die h ++ [m])

/-- The active hub sends an MSI-X message (R288). -/
def State.msix (s : State) (vec : Nat) : State :=
  s.emit (.msix s.red.active vec)

/-- Set a bit of the event cause register, with a vector 0 message when it rises unmasked (R486). -/
def State.cause (s : State) (bit : Nat) : State :=
  let m : BitVec 4 := BitVec.ofNat 4 (2 ^ bit)
  let t := { s with pcie := { s.pcie with cause := s.pcie.cause ||| m } }
  if s.pcie.cause &&& m = 0 ∧ s.pcie.mask &&& m ≠ 0 then t.msix 0 else t

/-- Pack event items upward from bit 0, each with its width, into 64-bit words (R454). -/
def packItems : List (Nat × Nat) → Nat × Nat
  | [] => (0, 0)
  | (v, w) :: l =>
    let r := packItems l
    (v % 2 ^ w + r.1 * 2 ^ w, w + r.2)

/-- Cut a packed number into 64-bit words, at least one. -/
def cutWords (x bits : Nat) : List (BitVec 64) :=
  (List.range (max 1 ((bits + 63) / 64))).map (fun i => BitVec.ofNat 64 (x >>> (64 * i)))

/-- An event passes its gate: the command WAITs in progress that select it have seen it (R190). -/
def Cmd.see (bit : Option Nat) (c : Cmd) : Cmd :=
  match bit with
  | none => c
  | some b =>
    let w := c.word.toNat
    if bitsAt w 0 8 = 0x0C ∧ bitsAt w 8 8 = 2 then { c with seen := c.seen ||| BitVec.ofNat 32 (2 ^ b) } else c

/-- Let every WAIT in progress see the event of a bit (R190). -/
def State.seeAll (s : State) (bit : Option Nat) : State :=
  let rs := Tbl.mapAll CmdRing.init (fun _ r => { r with cmd := r.cmd.map (Cmd.see bit) }) s.pcie.rings
  { s with
    pcie := { s.pcie with rings := rs }
    node := { s.node with script := s.node.script.map (fun c => { c with cmd := c.cmd.map (Cmd.see bit) }) } }

/-- Origin of an event (R453): the node or one hub. -/
def originOf : Option Hub → Nat
  | none => 0
  | some h => h.idx + 1

/-- Put an event word into the event FIFO to Hayward, with the node time of the step in progress (R453, R454). -/
def State.postWord (s : State) (code sev origin : Nat) (args : List (BitVec 64)) : State :=
  let t := s.nodeNow
  { s with hay := { s.hay with fifo := s.hay.fifo ++ [⟨code, sev, origin, args, t.1, t.2⟩] } }

/-- Raise an event: it passes its gate, the WAITs that select it see it, and its word goes to Hayward (R190, R453 to R455). -/
def State.post (s : State) (e : Ev) (items : List (Nat × Nat)) (org : Option Hub := none) : State :=
  let p := packItems items
  (s.seeAll e.waitBit).postWord e.code e.sev (originOf org) (cutWords p.1 p.2)

/-- The end of a condition: the same code with ARG bit 63 set and severity NOTICE (R455). -/
def State.postClear (s : State) (e : Ev) (items : List (Nat × Nat)) (org : Option Hub := none) : State :=
  let p := packItems items
  s.postWord e.code 1 (originOf org) (cutWords (p.1 % 2 ^ 63 + 2 ^ 63) 64)

/-- Number of a local error's name, in the order of R362. -/
def errCode : LocalErr → Nat
  | .gatemiss => 0 | .memlate => 1 | .stepskew => 2 | .rlink _ => 3 | .balerfail => 4 | .clkloss => 5 | .memcfg => 6
  | .chkfail => 7 | .memwrite => 8 | .mempoison => 9 | .tspoison => 10 | .wordpoison => 11 | .mismatch => 12 | .dirfix => 13
  | .fifo => 14 | .pciedown => 15 | .portdown _ => 16

/-- A lane figure that Hayward last read (R302, R452): 0 to 2 the eye widths, 3 to 5 the eye heights, 6 corrected symbols per
symbol, 7 uncorrectable codewords; a free value before the first reading. -/
def State.laneFig (s : State) (lane k : Nat) : Int :=
  let v := Tbl.get (0, 0) s.hay.values (7 * 4096 + lane * 8 + k)
  if v = (0, 0) then (Config.freeNat (s.free + (⟨0x0C, 7, k, 0, lane⟩ : Fig).key * 16) : Nat) else v.1

/-- The equaliser result of a lane is applied: its number, the smallest eye width and the smallest eye height are logged (R26, R302, R456). -/
def State.laneResult (s : State) (h : Option Hub) (lane : Nat) : State :=
  let low := fun (ks : List Nat) => (ks.map (s.laneFig lane)).foldl min (s.laneFig lane (ks.headD 0))
  s.post .calq [(lane, 7), (unsigned 16 (low [0, 1, 2]), 16), (unsigned 16 (low [3, 4, 5]), 16)] h

/-- A class-F error, other than of a region link, that makes its hub faulty in bring-up (R433). -/
def endsBringup (e : LocalErr) : Bool :=
  e.cls == .f && (match e with
    | .rlink _ => false
    | _ => true)

/-- A local error of a hub is reported, stamped with the step in progress, and counted by name (R362, R383). Before the self-test is
finished one of class F leaves the hub in the step it is in (R433). -/
def State.localErr (s : State) (h : Hub) (e : LocalErr) : State :=
  (s.modHubRed h (fun x => { x with
    errs := x.errs ++ [(e, s.clock.step)], dead := x.dead || (!s.node.stdone && endsBringup e) })).bump ⟨0x09, 3, 2, h.idx + 1, errCode e⟩

/-! ### Claims -/

/-- Every claim in force: the manifest's, the run-time ones and those of OTP defaults (R21 to R23, R173). -/
def State.allClaims (s : State) : List Claim :=
  s.node.claims ++ s.node.rtClaims ++ s.node.otpClaims

/-- The claim that holds a resource. -/
def State.holder (s : State) (type index : Nat) : Option Claim :=
  s.allClaims.find? (fun c => decide (c.type = type) && decide (c.index = index))

/-- Whether a feature holds a resource, or can take it because no one does (R173). -/
def State.mayTake (s : State) (type index user : Nat) : Bool :=
  match s.holder type index with
  | none => true
  | some c => decide (c.user = user)

/-- Take a resource for a feature at run time when no one holds it (R173). -/
def State.takeClaim (s : State) (type index user : Nat) : State :=
  match s.holder type index with
  | none => { s with node := { s.node with rtClaims := s.node.rtClaims ++ [⟨type, index, user, 0⟩] } }
  | some _ => s

/-- A baler is claimed (R251). -/
def State.balerClaimed (s : State) (b : Nat) : Bool := (s.holder 0x07 b).isSome

/-- A program is in force (R182). -/
def State.loaded (s : State) : Bool := s.node.prog.isSome

end Sys2Proof.Machine
end

