-- ==== Sys2Proof/Machine/Flags.lean ====
section
/-!
DEFINITION. The flag computations: the flags byte of a hit (R55, R68, R69, R102) and the difference it is formed from.
-/

namespace Sys2Proof.Machine

/-- CHR flag numbers (R55, R102, R129). -/
def flagLG : Nat := 0
def flagSWITCHED : Nat := 1
def flagTOTV : Nat := 2
def flagSHORT : Nat := 3
def flagORDER : Nat := 4
def flagHOLD : Nat := 5
def flagSAT : Nat := 6
def flagASAT : Nat := 7
def flagPOISON : Nat := 8
def flagINJ : Nat := 9
def flagPREBLANK : Nat := 10

/-- A flags byte with one flag set. -/
def flagBit (i : Nat) (b : Bool) : BitVec 8 :=
  if b then BitVec.ofNat 8 (2 ^ i) else 0

/-- The raw difference D of a start and a stop in fine ticks (R68): full coarse times and fine values. The coarse difference
is taken modulo 2^24, 2^23 or more counting as negative. -/
def rawDiff (cStart fStart cStop fStop : Nat) : Int :=
  signed 24 (unsigned 24 ((cStop : Int) - cStart)) * 512 + fStop - fStart

/-- ToT field and flags of a hit with a stop, rows 3 to 6 of the table of R68. -/
def totOf (d : Int) : Nat × BitVec 8 :=
  if d < 0 then (0, flagBit flagORDER true)
  else if d ≤ 3 then (0, flagBit flagSHORT true)
  else if d ≤ 65531 then ((d / 4).toNat, flagBit flagTOTV true)
  else (16383, flagBit flagTOTV true ||| flagBit flagSAT true)

/-- ToT field and flags of a hit that HITLIM ended, row 2 of R68. -/
def totLimit : Nat × BitVec 8 :=
  (16383, flagBit flagTOTV true ||| flagBit flagSAT true)

/-- Fine value of a bin centre (R60). -/
def fineOf (centre : Nat) : Nat :=
  min 511 ((centre + 16) >>> 5)

/-- CENTRE of a code in a generated seed map (R177). -/
def seedCentre (k : Nat) : Nat :=
  16368 - 32 * k

/-- CENTRE of a raw code under a map; a raw code of 512 is treated as 511 (R56, R60). -/
def centreOf (m : BinMap) (code : Nat) : Nat :=
  match m with
  | none => seedCentre (min code 511)
  | some l => l.getD (min code 511) 0 % 16384

end Sys2Proof.Machine
end

