-- ==== Sys2Proof/Machine/Tdc.lean ====
section
/-!
DEFINITION. The channel TDC: bin maps, seed maps, histograms, rebuilds and dither (R56 to R67).
-/

namespace Sys2Proof.Machine

/-! ### Setting words in force -/

/-- Voted region setting word of a die (R35, R37). -/
def State.regionWord (s : State) (die : Nat) : Nat := (s.fe die).region.vote.toNat

def trangeOf (w : Nat) : Nat := bitsAt w 61 3
def blankselOf (w : Nat) : Nat := bitsAt w 53 8
def guardOf (w : Nat) : Nat := bitsAt w 42 11
def tpdacOf (w : Nat) : Nat := bitsAt w 30 12
def hitlimOf (w : Nat) : Nat := bitsAt w 19 11
def injpolOf (w : Nat) : Nat := bitsAt w 18 1

/-- Voted channel setting word of a cell (R34, R37). -/
def Cell.w (c : Cell) : Nat := c.word.vote.toNat

def enOf (w : Nat) : Bool := bitAt w 31
def gainOf (w : Nat) : Nat := bitsAt w 29 2
def slopeOf (w : Nat) : Nat := bitsAt w 28 1
def thrOf (w : Nat) : Nat := bitsAt w 18 10
def resetOf (w : Nat) : Nat := bitsAt w 14 4

/-- The mask acts on a block: the mask is on and BLANKSEL selects the block (R35, R48). -/
def State.masked (s : State) (blk : Nat) : Bool :=
  (s.fe (blk / 8)).mask && bitAt (blankselOf (s.regionWord (blk / 8))) (blk % 8)

/-! ### Maps -/

/-- Band of a die, hub A being die 0, FE dies 1 to 8, hub B 9 (R30). -/
def State.band (s : State) (die : Nat) : Nat := bandOf (Tbl.get 0 s.thermal.bands die)

/-- The hub's number as a die of the band table: hub A 0, hub B 9. -/
def hubDie : Hub → Nat
  | .a => 0
  | .b => 9

/-- Table IDs of R174. -/
def idCurve : Nat := 0x01
def idSkew : Nat := 0x02
def idThreshold : Nat := 0x03
def idDecode : Nat := 0x04
def idFtt : Nat := 0x05
def idFormat : Nat := 0x06
def idDelta : Nat := 0x07
def idSeeds : Nat := 0x08
def idDerating : Nat := 0x09
def idPresets : Nat := 0x0A

/-- Bytes of a band part: a 64-byte header and one map set for each die whose MAPMODE bit is 0 (R176). -/
def bandOff (t : List Host.Cell) : Nat → Nat
  | 0 => 64
  | b + 1 =>
    let off := bandOff t b
    let mm := (byteAt t (off + 0x26)).toNat
    off + 64 + ((List.range 8).filter (fun n => !bitAt mm n)).length * 524288

def State.bandPartOff (s : State) (b : Nat) : Nat := bandOff (s.table idSeeds) b

/-- The seed map of a channel in the band of its die (R31, R176, R177): generated without a program or where MAPMODE says so. -/
def State.seedMap (s : State) (ch : Nat) : BinMap :=
  let die := ch / 512
  let off := s.bandPartOff (s.band (die + 1))
  let t := s.table idSeeds
  let mm := (byteAt t (off + 0x26)).toNat
  if !s.loaded || bitAt mm die then none
  else
    let before := ((List.range die).filter (fun n => !bitAt mm n)).length
    let base := off + 64 + before * 524288 + (ch % 512) * 1024
    some ((List.range 512).map (fun k => numAt t (base + 2 * k) 2))

/-- A map reaches a channel whose buffers stand as R61 lists: it replaces, is discarded, is written, or waits outside. -/
def ChanTdc.arrive (t : ChanTdc) (m : WaitMap) : ChanTdc :=
  let seedWaits := (t.waiting.map (·.seed)).getD false || (t.outside.map (·.seed)).getD false
  if !m.seed && seedWaits then t
  else if t.guard = 0 then { t with waiting := some m, outside := none }
  else { t with outside := some m }

/-- The slice boundary of a full slice number: a waiting map becomes active, and the three-boundary guard counts (R61). Seed maps
of a band change clear the histogram and abandon a rebuild (R67); the one that repairs a bad map clears the mark alone (R62). -/
def ChanTdc.boundary (t : ChanTdc) (slice : Nat) : ChanTdc :=
  match t.waiting with
  | none => { t with guard := t.guard - 1 }
  | some m =>
    let u := { t with
      active := m.map, seed := m.seed, old := t.active, swapAt := slice, waiting := none, guard := 3, bad := t.bad && !m.seed }
    if m.seed then
      let u := { u with rebuilds := 0 }
      if m.band then { u with hist := [], total := 0, rebuild := none } else u
    else { u with resid := m.resid, rebuilds := t.rebuilds + 1 }

/-- One more result applied in an interval (R456). -/
def Applied.add (a : Applied) (which figure : Nat) : Applied :=
  let worse := decide (a.n = 0) || decide (a.figure < figure)
  { worst := if worse then which else a.worst, figure := max a.figure figure, sum := a.sum + figure, n := a.n + 1 }

/-- The residuals that the boundary publishes for a die: those of the rebuilt maps that become active (R63, R456). -/
def State.appliedMaps (s : State) (d : Nat) (a : Applied) : Applied :=
  s.tdcs.foldl (fun a p =>
    if p.1 / 512 = d then
      match p.2.waiting with
      | some m => if m.seed then a else a.add p.1 m.resid
      | none => a
    else a) a

/-- The map active in a slice, for hits begun under it (R61). -/
def ChanTdc.mapOf (t : ChanTdc) (slice : Nat) : BinMap :=
  if slice < t.swapAt then t.old else t.active

/-- A map read fails parity: the map is bad, MAPFIX is logged and the seed map is requested from the active hub (R62). -/
def State.mapFix (s : State) (ch : Fin 4096) : State :=
  ((s.modTdc ch (fun t => { t with bad := true })).post .mapfix []).say (ch / 512) s.red.active (.seedMap ch false)

/-- MAP_ARRIVAL (R61): a seed map from the control lane, or a map that waited outside the buffer for its three boundaries,
reaches the inactive buffer. -/
def State.mapArrival (s : State) (ch : Fin 4096) (seed : Bool) : State :=
  let f := s.fe (ch / 512)
  let t := s.tdc ch
  match if seed then f.mapIn.find? (fun p => p.1 == ch.val) else none with
  | some p =>
    (s.modFe (ch / 512) (fun f => { f with mapIn := f.mapIn.erase p })).setTdc ch (t.arrive ⟨true, p.2, s.seedMap ch, 0⟩)
  | none =>
    match t.outside with
    | some m => s.when (t.guard == 0 && m.seed == seed) (fun s => s.setTdc ch { t with waiting := some m, outside := none })
    | none => s

/-! ### Histogram -/

/-- TDC control word in force: HSRC, DLOW, DPER, EXCL (R65). -/
def Fe.hsrc (f : Fe) : Nat := bitsAt f.tdcCtl.toNat 30 2
def Fe.dlow (f : Fe) : Nat := bitsAt f.tdcCtl.toNat 16 14
def Fe.dper (f : Fe) : Nat := bitsAt f.tdcCtl.toNat 12 4
def Fe.excl (f : Fe) : Nat := bitsAt f.tdcCtl.toNat 4 8

/-- A start is excluded: within 128 ticks from an injection event, or within the exclusion after a TOUT event (R64). -/
def Fe.excluded (f : Fe) (now : Nat) : Bool :=
  (match f.injAt with
   | some t => decide (t ≤ now) && decide (now ≤ t + 127)
   | none => false) || decide (now < f.exclTo)

/-- Count a start's raw code (R63). -/
def ChanTdc.addCode (t : ChanTdc) (code : Nat) : ChanTdc :=
  { t with hist := Tbl.set 0 t.hist (min code 511) (Tbl.get 0 t.hist (min code 511) + 1), total := t.total + 1 }

/-- Entries that fill a histogram (R63). -/
def histFull : Nat := 65536

/-- The cell of a block whose rebuild the block's unit serves: the one begun, as long as it is not abandoned, else the
lowest-numbered one that waits (R63). -/
def State.rebuilding (s : State) (blk : Nat) : Option Nat :=
  let waits := fun (k : Nat) => (s.tdc (blk * 64 + k)).rebuild.isSome
  match (s.block blk).unit with
  | some k => if waits k then some k else (List.range 64).find? waits
  | none => (List.range 64).find? waits

/-- HISTOGRAM_FULL (R63): the counts are taken for a rebuild, the histogram is cleared, and a unit with nothing to do begins. -/
def State.histogramFull (s : State) (ch : Fin 4096) : State :=
  s.when (s.live && decide (histFull ≤ (s.tdc ch).total)) (fun s =>
    let s := s.modTdc ch (fun t => { t with rebuild := some t.hist, hist := [], total := 0 })
    s.modBlock (ch / 64) (fun b => { b with unit := s.rebuilding (ch / 64) }))

/-- The centres that R63 computes from 512 counts. -/
def rebuildCentres (counts : Tbl Nat) : Nat → Nat → List Nat → List Nat
  | 0, _, acc => acc.reverse
  | n + 1, cum, acc =>
    let k := 511 - n
    let c := Tbl.get 0 counts k
    rebuildCentres counts n (cum + c) (min (16384 - ((2 * cum + c) >>> 3)) 16383 :: acc)

/-- Sum of squared differences of two maps in 1/32 fine tick. -/
def mapDiff2 (m : List Nat) (old : BinMap) : Nat :=
  (m.zipIdx.map (fun p => ((p.1 : Int) - centreOf old p.2).natAbs ^ 2)).sum

/-- Residual in 1/256 ps (R63): the rms over 512 codes in 1/32 fine tick, one fine tick being 1.52587890625 ps = 25/16.384 ps.
-/
def residOf (d2 : Nat) : Nat :=
  openSqrt 6 (d2 * (256 * 152587890625) ^ 2) (512 * (32 * 100000000000) ^ 2)

/-- A channel's TDC with the map computed from the counts taken, and its residual to publish (R63). -/
def ChanTdc.rebuilt (t : ChanTdc) (counts : Tbl Nat) : ChanTdc :=
  let m := rebuildCentres counts 512 0 []
  { t with rebuild := none }.arrive ⟨false, false, some m, residOf (mapDiff2 m t.active)⟩

/-- REBUILD_DONE (R63): the unit of the block has computed the map of the channel it serves, and takes the next in channel
order. -/
def State.rebuildDone (s : State) (ch : Fin 4096) : State :=
  let t := s.tdc ch
  match t.rebuild with
  | none => s
  | some counts =>
    if s.rebuilding (ch / 64) != some (ch.val % 64) then s
    else
      let s := s.setTdc ch (t.rebuilt counts)
      s.modBlock (ch / 64) (fun b => { b with unit := s.rebuilding (ch / 64) })

/-! ### Dither -/

/-- A channel receives dither: every enabled channel under HSRC 1, under HSRC 0 one with fewer than DLOW hits in the epoch
before (R65). -/
def State.dithered (s : State) (ch : Nat) : Bool :=
  let f := s.fe (ch / 512)
  enOf (s.cell ch).w &&
    (f.hsrc == 1 || (f.hsrc == 0 && decide ((s.tdc ch).hitsPrev < f.dlow)))

/-- The dither period in force, in coarse ticks (R65). -/
def Fe.ditherPeriod (f : Fe) : Nat := 2 ^ (f.dper + 7)

/-- No entry was offered to a channel yet in the dither period of a full coarse time (R66). -/
def State.ditherDue (s : State) (ch now : Nat) : Bool :=
  let p := (s.fe (ch / 512)).ditherPeriod
  match (s.tdc ch).offered with
  | some t => t / p != now / p
  | none => true

/-- DITHER_ENTRY (R66): the period's one entry is offered; an idle cell takes it, which drives the line for 4 coarse ticks and is
counted; any other drops it. -/
def State.ditherEntry (s : State) (ch : Fin 4096) (tick : BitVec 12) (code : Nat) : State :=
  let c := s.cell ch
  let now := s.coarse tick
  s.when (s.awake && s.dithered ch && s.ditherDue ch now) (fun s =>
    let s := s.modTdc ch (fun t => { t with offered := some now })
    s.when (c.phase == .armed && !c.disc && !s.masked (ch / 64) && c.dither == none) (fun s =>
      let s := s.setCell ch { c with dither := some (now + 4) }
      s.when (!(s.fe (ch / 512)).excluded now) (fun s => s.modTdc ch (fun t => t.addCode code))))

/-- DITHER_END (R66). -/
def State.ditherEnd (s : State) (ch : Fin 4096) (tick : BitVec 12) : State :=
  s.modCell ch (fun c =>
    match c.dither with
    | some t => if t ≤ s.coarse tick then { c with dither := none } else c
    | none => c)

/-! ### Meanings -/

def execMapArrival (ch : Fin 4096) (seed : Bool) (s : State) : Host.Outcome State Fault Refusal :=
  .next (s.when s.live (fun s => s.mapArrival ch seed))

def execHistogramFull (ch : Fin 4096) (s : State) : Host.Outcome State Fault Refusal :=
  .next (s.histogramFull ch)

def execRebuildDone (ch : Fin 4096) (s : State) : Host.Outcome State Fault Refusal :=
  .next (s.when s.live (fun s => s.rebuildDone ch))

def execDitherEntry (ch : Fin 4096) (tick : BitVec 12) (code : Fin 513) (s : State) :
    Host.Outcome State Fault Refusal :=
  .next (s.ditherEntry ch tick code)

def execDitherEnd (ch : Fin 4096) (tick : BitVec 12) (s : State) : Host.Outcome State Fault Refusal :=
  .next (s.when s.live (fun s => s.ditherEnd ch tick))

end Sys2Proof.Machine
end

