-- ==== Sys2Proof/Machine/Cells.lean ====
section
/-!
DEFINITION. The channel cells: settings and their take-over, the course of a hit, blanking, injection, and what an FE die
receives on its control lanes (R33 to R55, R105).
-/

namespace Sys2Proof.Machine

/-! ### Hold slots -/

def Cell.slot (c : Cell) : Nat → Option Held
  | 0 => c.slot0
  | 1 => c.slot1
  | 2 => c.slot2
  | _ => c.slot3

def Cell.setSlot (c : Cell) (i : Nat) (h : Option Held) : Cell :=
  match i with
  | 0 => { c with slot0 := h }
  | 1 => { c with slot1 := h }
  | 2 => { c with slot2 := h }
  | _ => { c with slot3 := h }

/-- The lowest-numbered free hold slot (R84). -/
def Cell.freeSlot (c : Cell) : Option Nat :=
  [0, 1, 2, 3].find? (fun i => (c.slot i).isNone)

/-- Place a captured peak in the lowest-numbered free slot (R84). A cell that accepts leading edges has one. -/
def Cell.hold (c : Cell) (h : Held) : Cell :=
  match c.freeSlot with
  | some i => { c.setSlot i (some h) with age := c.age + 1 }
  | none => c

/-! ### Settings -/

/-- FE logic cycles of 4 coarse ticks: 1 µs and 2 µs of settling (R36). -/
def settleShort : Nat := 320 * 4
def settleLong : Nat := 640 * 4

/-- The later of a settling in progress and a new one: a new one never ends another early (R36, R54). -/
def laterSettle (old : Option Nat) (t : Nat) : Option Nat := some (max (old.getD 0) t)

/-- A cell takes a new channel word and new region fields at its take-over point; what it does not take goes on waiting (R36). -/
def Cell.takeOver (c : Cell) (w : Option (BitVec 32)) (rg : Option (Nat × Nat)) (now : Nat) : Cell :=
  let old := c.w
  let new := (w.map (·.toNat)).getD old
  let tr := (rg.map (·.1)).getD c.trange
  let hl := (rg.map (·.2)).getD c.hitlim
  let changed := thrOf old != thrOf new || gainOf old != gainOf new || slopeOf old != slopeOf new || tr != c.trange
  let wait :=
    if enOf new && !enOf old then laterSettle c.settle (now + settleLong)
    else if enOf new && changed then laterSettle c.settle (now + settleShort)
    else c.settle
  { c with
    word := match w with
      | some v => Trip.all v
      | none => c.word
    trange := tr, hitlim := hl, settle := wait, waiting := if w.isSome then none else c.waiting
    due := if w.isSome then none else c.due, waitRegion := if rg.isSome then none else c.waitRegion
    disc := c.disc && enOf new }

/-- A hit runs, up to the edge or the comparator that ends it (R42 to R44). -/
def Cell.busyHit (c : Cell) : Bool :=
  c.phase == .hit || c.phase == .switched || c.phase == .peakArmed

/-- A hit is in progress at a full coarse time: from the tick of its leading edge up to, but not including, the FE logic edge at
which its peak is captured (R50). -/
def Cell.hitAt (c : Cell) (t : Nat) : Bool :=
  decide (c.start ≤ t) && (c.busyHit || decide (t < c.capAt))

/-- The slice boundary of a cell: with no hit in progress it takes what waits, else it keeps it for the end of the hit's reset. A
cell in the reset of its hit takes what this boundary brings and keeps what an earlier one left for the end of the reset (R36). -/
def Cell.boundary (c : Cell) (rg : Option (Nat × Nat)) (now : Nat) : Cell :=
  if c.hitAt now then
    { c with
      due := match c.waiting with
        | some w => some w
        | none => c.due
      waiting := none
      waitRegion := match rg with
        | some r => some r
        | none => c.waitRegion }
  else if c.waiting.isSome || rg.isSome then c.takeOver c.waiting rg now
  else c

/-! ### The course of a hit -/

/-- A cell accepts a leading edge (R36, R42, R48, R54, R66, R444). -/
def State.accepts (s : State) (ch now : Nat) : Bool :=
  let c := s.cell ch
  s.awake && enOf c.w && c.phase == .armed && !s.masked (ch / 64) && !(s.fe (ch / 512)).stopped &&
    (match c.settle with
     | some t => decide (t ≤ now)
     | none => true) &&
    (match c.dither with
     | some t => decide (t ≤ now)
     | none => true)

/-- The start of a hit: stamp, holdover and map state (R42 step 1, R58 to R60, R62, R69). -/
def State.startHit (s : State) (ch : Fin 4096) (now code : Nat) (pf : Bool) : State :=
  let f := s.fe (ch / 512)
  let t := s.tdc ch
  let s := s.modCell ch (fun c =>
    { c with
      phase := .hit, start := now, startFine := fineOf (centreOf (t.mapOf (now / 4096)) code)
      startHold := match f.hold with
        | some h => decide (h ≤ now)
        | none => false
      startBad := pf || t.bad, switchAt := none })
  let s := s.when ((f.hsrc == 0 || f.hsrc == 2) && !f.excluded now)
    (fun s => s.modTdc ch (fun t => { t.addCode code with hitsNow := t.hitsNow + 1 }))
  if pf then s.mapFix ch else s

/-- Figure of BLOCKS (R114). -/
def figBlocks (row idx : Nat) (q : Nat := 0) (hub : Nat := 0) : Fig := ⟨0x01, row, q, hub, idx⟩

/-- LEADING_EDGE (R42, R49, R59, R84): an accepted edge starts a hit; an edge that a cell sees while it waits for a hold slot
is counted as blocked; any other edge is ignored. -/
def State.leadingEdge (s : State) (ch : Fin 4096) (tick : BitVec 12) (code : Nat) (pf : Bool) : State :=
  let c := s.cell ch
  let now := s.coarse tick
  if !s.awake || !enOf c.w || c.disc then s
  else
    let t := s.modCell ch (fun c => { c with disc := true })
    if s.accepts ch now then t.startHit ch now code pf
    else if c.phase = .waitSlot then t.bump (figBlocks 1 (ch / 64))
    else t

/-- Peak capture (step 3 of R42, R84): at the FE logic edge of full coarse time `at_` the peak goes to a hold slot and the reset
switch closes. The discriminator stays as it was last reported. -/
def Cell.capture (c : Cell) (tot : Nat) (flags : BitVec 8) (peak : Int) (bad : Bool) (at_ : Nat) : Cell :=
  let h : Held :=
    { start := c.start, fine := c.startFine, tot := tot, flags := flags ||| flagBit flagHOLD c.startHold
      peak := peak, poison := c.startBad || bad, at_ := at_, age := c.age, granted := false }
  { c.hold h with phase := .reset, capAt := at_, resetAt := at_ + (resetOf c.w + 1) * 32 }

/-- The peak last placed on a hold slot is taken back: its hit goes on instead of being captured (R44). -/
def Cell.uncapture (c : Cell) : Cell :=
  match [0, 1, 2, 3].find? (fun i => match c.slot i with
    | some h => h.age + 1 == c.age
    | none => false) with
  | some i => { c.setSlot i none with age := c.age - 1, capAt := 0 }
  | none => c

/-- LG of a cell in fixed low gain (R45). -/
def Cell.lg (c : Cell) : Bool := gainOf c.w == 1

/-- TRAILING_EDGE (R42, R59, R68): the stop of a hit, its ToT and flags, and the peak captured on the second FE logic edge. -/
def State.trailingEdge (s : State) (ch : Fin 4096) (tick : BitVec 12) (code : Nat) (peak : Int) (pf : Bool) : State :=
  let c := s.cell ch
  let now := s.coarse tick
  if c.phase = .hit then
    let t := s.tdc ch
    let d := rawDiff c.start c.startFine now (fineOf (centreOf (t.mapOf (c.start / 4096)) code))
    let r := totOf d
    let c := { c with disc := false }
    let s := s.setCell ch (c.capture r.1 (r.2 ||| flagBit flagLG c.lg) peak pf (4 * (now / 4 + 2)))
    if pf then s.mapFix ch else s
  else s.setCell ch { c with disc := false }

/-- HIT_LENGTH_LIMIT (R43, R44, R68): the hit ends on FE logic edge HITLIM with the discriminator still true; a switched pulse,
whose stop is masked, ends there whatever its discriminator. -/
def State.hitLengthLimit (s : State) (ch : Fin 4096) (tick : BitVec 12) (peak : Int) : State :=
  let c := s.cell ch
  let at_ := 4 * (c.start / 4 + c.hitlim)
  if c.busyHit && (c.disc || c.phase != .hit) && decide (at_ ≤ s.coarse tick) then
    let r : Nat × BitVec 8 :=
      if c.phase = .hit then (totLimit.1, totLimit.2 ||| flagBit flagLG c.lg)
      else (0, flagBit flagLG true ||| flagBit flagSWITCHED true)
    s.setCell ch (c.capture r.1 r.2 peak false at_)
  else s

/-- The range comparator is enabled, from the leading edge until the peak is captured (R44); a stop may have been stamped. -/
def Cell.comparing (c : Cell) (now : Nat) : Bool :=
  c.phase == .hit || c.phase == .reset && c.switchAt.isNone && decide (now < c.capAt)

/-- RANGE_SWITCH (R44 to R46): the first switch of an AUTO cell's pulse. A pulse whose stop is stamped and whose peak is not yet
captured switches too, and its stop and its capture in HG go. -/
def State.rangeSwitch (s : State) (ch : Fin 4096) (tick : BitVec 12) : State :=
  let now := s.coarse tick
  s.modCell ch (fun c =>
    if c.comparing now && gainOf c.w == 2 then
      { (if c.phase = .reset then c.uncapture else c) with phase := .switched, switchAt := some now }
    else c)

/-- PEAK_FOUND_ARMED (R44): eight coarse ticks after t_s. -/
def State.peakFoundArmed (s : State) (ch : Fin 4096) (tick : BitVec 12) : State :=
  s.modCell ch (fun c =>
    match c.switchAt with
    | some t => if c.phase = .switched ∧ t + 8 ≤ s.coarse tick then { c with phase := .peakArmed } else c
    | none => c)

/-- PEAK_FOUND (R44, R45): the LG peak is captured on the next FE logic edge. -/
def State.peakFound (s : State) (ch : Fin 4096) (tick : BitVec 12) (peak : Int) : State :=
  let c := s.cell ch
  if c.phase = .peakArmed then
    s.setCell ch
      (c.capture 0 (flagBit flagLG true ||| flagBit flagSWITCHED true) peak false (4 * (s.coarse tick / 4 + 1)))
  else s

/-- RESET_END (steps 4 and 5 of R42): the reset opens; a cell whose boundary came during the hit takes its settings (R36). -/
def State.resetEnd (s : State) (ch : Fin 4096) (tick : BitVec 12) : State :=
  let c := s.cell ch
  let now := s.coarse tick
  if c.phase = .reset ∧ c.resetAt ≤ now then
    let c' := { c with phase := .settling, rearmAt := c.resetAt + 7, switchAt := none }
    s.setCell ch
      (if c.due.isSome || c.waitRegion.isSome then { c'.takeOver c.due c.waitRegion c.resetAt with waiting := c.waiting } else c')
  else s

/-- REARM (step 6 of R42, R84). -/
def State.rearm (s : State) (ch : Fin 4096) (tick : BitVec 12) : State :=
  s.modCell ch (fun c =>
    if c.phase = .settling ∧ c.rearmAt ≤ s.coarse tick then
      { c with phase := if c.freeSlot.isSome then .armed else .waitSlot }
    else c)

/-- SETTLE_END (R36, R54). -/
def State.settleEnd (s : State) (ch : Fin 4096) (tick : BitVec 12) : State :=
  s.modCell ch (fun c =>
    match c.settle with
    | some t => if t ≤ s.coarse tick then { c with settle := none } else c
    | none => c)

/-! ### Blanking -/

/-- Apply a function to every FE die. -/
def State.allFes (s : State) (g : Nat → Fe → Fe) : State :=
  (List.range 8).foldl (fun s d => s.modFe d (g d)) s

/-- The mask side of BLANK_RISE for one die (R48, R49): a mask starts two REFCLK periods later; where a mask still runs on or its
guard does, it stays on and its end is counted anew from the next f0. -/
def Fe.blankRise (f : Fe) (now : Nat) : Fe :=
  if decide (0 < guardOf f.region.vote.toNat) && f.maskEnd.any (fun e => decide (now < e)) then
    { f with maskEnd := f.maskEnd.dropLast }
  else { f with maskAt := f.maskAt ++ [now + 16] }

/-- The cells of a block that have a hit in progress at a full coarse time (R50). -/
def State.hitVector (s : State) (blk now : Nat) : Nat :=
  ((List.range 64).filter (fun k => (s.cell (blk * 64 + k)).hitAt now)).foldl (fun v k => v + 2 ^ k) 0

/-- A blank-start event (R104). -/
def blankEvent (block coarse cells : Nat) : Rhr :=
  BitVec.ofNat 96 (0x8 * 2 ^ 92 + block % 8 * 2 ^ 89 + coarse % 2 ^ 24 * 2 ^ 65 + cells % 2 ^ 64 * 2)

/-- An injection event (R104). -/
def injectEvent (coarse tpdac injpol : Nat) : Rhr :=
  BitVec.ofNat 96 (0x9 * 2 ^ 92 + coarse % 2 ^ 24 * 2 ^ 68 + tpdac % 4096 * 2 ^ 56 + injpol % 2 * 2 ^ 55)

/-- A loss record (R104). -/
def lossRecord (source coarse count : Nat) : Rhr :=
  BitVec.ofNat 96 (0x4 * 2 ^ 92 + source % 16 * 2 ^ 88 + coarse % 2 ^ 24 * 2 ^ 64 + min count 0xFFFF * 2 ^ 48)

/-- MASK_START (R48, R50): each selected block of the die places a blank-start event with the cells that have a hit in
progress. -/
def State.maskStart (s : State) (die : Fin 8) (tick : BitVec 12) : State :=
  let f := s.fe die
  let now := s.coarse tick
  match f.maskAt with
  | [] => s
  | t :: rest =>
    s.when (decide (t ≤ now)) (fun s =>
      let sel := blankselOf (s.regionWord die)
      let evs := ((List.range 8).filter (fun b => bitAt sel b)).map (fun b =>
        ({ bits := blankEvent b t (s.hitVector (die * 8 + b) t), poison := none, slice := t / 4096 } : FeRec))
      s.setFe die { f with mask := true, maskAt := rest, eventQ := f.eventQ ++ evs })

/-- BLANK_FALL (R48): the mask of each die ends GUARD REFCLK periods after f0 + 2. -/
def Fe.blankFall (f : Fe) (now : Nat) : Fe :=
  { f with maskEnd := f.maskEnd ++ [now + 16 + 8 * guardOf f.region.vote.toNat] }

/-- MASK_END (R48, R49, R90): the mask turns off; the idle count of the die's selected blocks begins. -/
def State.maskEndAt (s : State) (die : Fin 8) (tick : BitVec 12) : State :=
  let f := s.fe die
  let now := s.coarse tick
  match f.maskEnd with
  | [] => s
  | t :: rest =>
    s.when (f.mask && decide (t ≤ now)) (fun s =>
      let sel := blankselOf (s.regionWord die)
      let s := s.setFe die { f with mask := false, maskEnd := rest }
      ((List.range 8).filter (fun b => bitAt sel b)).foldl
        (fun s b => s.modBlock (die * 8 + b) (fun x => { x with idleFrom := t })) s)

/-- The BLANK pause of the monitor: BLANK is high, or its guard runs; a regular entry in progress is abandoned (R396). -/
def State.blankMon (s : State) (b : Bool) : State :=
  let m := { s.mon with blank := b, pause := true }
  match m.cur with
  | some r =>
    if b && !r.inj then
      ({ s with mon := { m with cur := none, abandoned := some r.entry } }).bump ⟨0x0A, 4, 1, 0, whole⟩
    else { s with mon := m }
  | none => { s with mon := m }

/-- The full coarse time of a REFCLK edge at which the FE dies sample BLANK: every 8 coarse ticks (R47). -/
def State.blankSample (s : State) (n : BitVec 9) : Nat := s.coarse0 + 8 * n.toNat

/-- The first sample at which a die sees the new level: the sample named, or the one after it for a die that `late` lists (R47). -/
def seenAt (now : Nat) (late : BitVec 8) (d : Nat) : Nat := now + (if late.getLsbD d then 8 else 0)

/-- BLANK_RISE (R47 to R49, R396). -/
def State.blankRise (s : State) (n : BitVec 9) (late : BitVec 8) : State :=
  s.when (s.live && !s.node.blank) (fun s =>
    let now := s.blankSample n
    let s := s.allFes (fun d f => f.blankRise (seenAt now late d))
    { s with node := { s.node with blank := true, blankAt := now } }.blankMon true)

/-- BLANK_FALL (R47 to R49, R396). -/
def State.blankFall (s : State) (n : BitVec 9) (late : BitVec 8) : State :=
  s.when (s.live && s.node.blank) (fun s =>
    let now := s.blankSample n
    let s := s.allFes (fun d f => f.blankFall (seenAt now late d))
    { s with node := { s.node with blank := false, blankAt := now } }.blankMon false)

/-! ### Injection -/

/-- A step is due on a die at a full coarse time; two in the same tick give one (R52). -/
def Fe.injectAt (f : Fe) (t : Nat) : Fe :=
  if f.injDue.contains t then f else { f with injDue := f.injDue ++ [t] }

/-- INJECTION_STEP (R52): a due step is launched, moved behind the settling of TPDAC, or not executed. -/
def State.injectionStep (s : State) (die : Fin 8) (tick : BitVec 12) : State :=
  let f := s.fe die
  let now := s.coarse tick
  match f.injDue.find? (fun t => decide (t ≤ now)) with
  | none => s
  | some t =>
    let g := { f with injDue := f.injDue.erase t }
    let settled := match f.tpdacAt with
      | some c => decide (c + 2560 ≤ t)
      | none => true
    let close := match f.injAt with
      | some p => decide (t < p + 5120)
      | none => false
    if !s.awake then (s.setFe die g).post .injskip []
    else if !settled then s.setFe die (g.injectAt ((f.tpdacAt.getD 0) + 2560))
    else if close then (s.setFe die g).post .injskip []
    else
      let w := s.regionWord die
      s.setFe die { g with
        injAt := some t
        eventQ := g.eventQ ++ [{ bits := injectEvent t (tpdacOf w) (injpolOf w), poison := none, slice := t / 4096 }] }

/-- A die whose power state is about to leave the counts or the FE logic at rest executes no strobe that it has received: each is
logged (R52). -/
def State.dropStrobes (s : State) : State :=
  (List.range 8).foldl (fun s d =>
    let f := s.fe d
    let n := f.injDue.length + (if f.strobe then 1 else 0)
    (List.range n).foldl (fun s _ => s.post .injskip []) (s.when (decide (0 < n)) (fun s =>
      s.setFe d { f with injDue := [], strobe := false }))) s

/-! ### The derandomiser's fill -/

/-- FE control word in force: ADCLP, DRHI, DRLO, RLERR, LAG (R95). -/
def Fe.adclp (f : Fe) : Nat := bitsAt f.feCtl.toNat 24 8
def Fe.drHigh (f : Fe) : Nat := bitsAt f.feCtl.toNat 20 4
def Fe.drLow (f : Fe) : Nat := bitsAt f.feCtl.toNat 16 4
def Fe.rlerr (f : Fe) : Nat := bitsAt f.feCtl.toNat 12 4
def Fe.lag (f : Fe) : Nat := bitsAt f.feCtl.toNat 8 4

/-- Records of the derandomiser (R98). -/
def drCapacity : Nat := 131072

/-- One sixteenth of the derandomiser (R95). -/
def drSixteenth : Nat := 8192

/-- Position after the last record written. -/
def Fe.drEnd (f : Fe) : Nat := f.drBase + f.dr.length

/-- A link that still takes records (R110). -/
def Fe.serves (f : Fe) (h : Hub) : Bool := !(f.link h).failed

/-- Records leave once every link in service has had them acknowledged, and at once when no link serves (R98, R110). -/
def Fe.prune (f : Fe) : Fe :=
  let upto :=
    match f.serves .a, f.serves .b with
    | true, true => min f.linkA.acked f.linkB.acked
    | true, false => f.linkA.acked
    | false, true => f.linkB.acked
    | false, false => f.drEnd
  let n := min (upto - f.drBase) f.dr.length
  { f with drBase := f.drBase + n, dr := f.dr.drop n }

/-- DRHI follows the fill with the watermarks of R99. -/
def Fe.watermark (f : Fe) : Fe :=
  { f with
    drhi :=
      if f.drHigh * drSixteenth ≤ f.dr.length then true
      else if f.dr.length < f.drLow * drSixteenth then false
      else f.drhi
    drPeak := max f.drPeak f.dr.length }

/-- The FE die's side of a persistent failure: the link takes no more records, its replay buffer is discarded and its
acknowledgement timeout stops (R110). -/
def RLink.fail (l : RLink) : RLink :=
  { l with failed := true, replay := [], resend := [], wire := [] }

/-- A link fails at the die: its read pointer is released, so that records that only it held leave the derandomiser (R100, R110). -/
def Fe.failLink (f : Fe) (h : Hub) : Fe := ((f.setLink h (f.link h).fail).prune).watermark

/-! ### The control lane and the setting sweep -/

/-- Messages that rows of their own receive: ACK, NAK, PAUSE and RESUME. -/
def LaneMsg.flow : LaneMsg → Bool
  | .ack _ | .nak _ | .pause | .resume => true
  | _ => false

/-- Drop the first element that satisfies a test. -/
def dropFirst {α : Type} (p : α → Bool) : List α → List α
  | [] => []
  | a :: l => if p a then l else a :: dropFirst p l

/-- An FE die obeys a message; setting, map and mode traffic only from the active hub's lane (R105). -/
def State.obey (s : State) (die : Fin 8) (h : Hub) (m : LaneMsg) : State :=
  let own := h == s.red.active
  match m with
  | .setting ch w => s.when own (fun s => s.modCell ch (fun c => { c with waiting := some w }))
  | .region w => s.when own (fun s => s.modFe die (fun f => { f with regionWait := some w }))
  | .tdcCtl w => s.when own (fun s => s.modFe die (fun f => { f with tdcWait := some w }))
  | .feCtl w => s.when own (fun s => s.modFe die (fun f => { f with feWait := some w }))
  | .atime w => s.when own (fun s => s.modFe die (fun f => { f with atime := w }))
  | .seedMap ch band =>
    s.when own (fun s => s.modFe die (fun f =>
      { f with mapIn := f.mapIn.filter (fun p => p.1 != ch.val) ++
          [(ch.val, band || f.mapIn.any (fun p => p.1 == ch.val && p.2))] }))
  | .strobe =>
    s.when own (fun s =>
      if deepState s.node.pstate then s.post .injskip [] else s.modFe die (fun f => { f with strobe := true }))
  | .retrain => s.modLink die h (fun l => { l with heard := true })
  | .failure => s.modFe die (fun f => f.failLink h)
  | .ack _ | .nak _ | .pause | .resume => s

/-- CONTROL_LANE_RECEIVE (R105): the oldest setting, map, mode step or failure message of a lane. -/
def State.controlLaneReceive (s : State) (die : Fin 8) (h : Hub) : State :=
  match (s.lane die h).find? (fun m => !m.flow) with
  | none => s
  | some m => (s.setLane die h (dropFirst (fun m => !m.flow) (s.lane die h))).obey die h m

/-- Upset one copy of a word. -/
def Trip.upset {w : Nat} (t : Trip w) (copy : Fin 3) (x : BitVec w) : Trip w :=
  match copy with
  | 0 => { t with c0 := t.c0 ^^^ x }
  | 1 => { t with c1 := t.c1 ^^^ x }
  | 2 => { t with c2 := t.c2 ^^^ x }

/-- The three copies of a word disagree (R37). -/
def Trip.torn {w : Nat} (t : Trip w) : Bool := t.c0 != t.c1 || t.c0 != t.c2

/-- A single-event upset in a setting word of a die: channel words 0 to 511, the region word 512. -/
def State.upset (s : State) (die : Fin 8) (u : Nat × Fin 3 × BitVec 64) : State :=
  if u.1 < 512 then
    s.modCell (die * 512 + u.1) (fun c => { c with word := c.word.upset u.2.1 (u.2.2.setWidth 32) })
  else s.modFe die (fun f => { f with region := f.region.upset u.2.1 u.2.2 })

/-- The sweep of one channel word: rewritten from its voted value, a disagreement logged (R37). -/
def State.sweepCell (s : State) (ch : Nat) : State :=
  let c := s.cell ch
  if c.word.torn then (s.setCell ch { c with word := Trip.all c.word.vote }).post .setfix [(ch, 12)] else s

/-- SETTING_SWEEP (R37): the upsets since the last sweep are voted away, channel words in ascending order, then the region
word. -/
def State.settingSweep (s : State) (die : Fin 8) (upsets : List (Nat × Fin 3 × BitVec 64)) : State :=
  s.when (s.live && (s.fe die).sweep) (fun s =>
    let s := upsets.foldl (fun s u => s.upset die u) s
    let chs := (s.cells.map (·.1)).filter (fun ch => decide (ch / 512 = die.val))
    let s := chs.foldl State.sweepCell s
    let f := s.fe die
    let s := s.setFe die { f with region := Trip.all f.region.vote, sweep := false }
    if f.region.torn then s.post .setfix [(die.val, 12), (1, 1)] else s)

/-! ### Meanings -/

def execLeadingEdge (ch : Fin 4096) (tick : BitVec 12) (code : Fin 513) (pf : Bool) (s : State) :
    Host.Outcome State Fault Refusal :=
  .next (s.leadingEdge ch tick code pf)

def execTrailingEdge (ch : Fin 4096) (tick : BitVec 12) (code : Fin 513) (peak : Int) (pf : Bool) (s : State) :
    Host.Outcome State Fault Refusal :=
  .next (s.when s.live (fun s => s.trailingEdge ch tick code peak pf))

def execHitLengthLimit (ch : Fin 4096) (tick : BitVec 12) (peak : Int) (s : State) :
    Host.Outcome State Fault Refusal :=
  .next (s.when s.live (fun s => s.hitLengthLimit ch tick peak))

def execRangeSwitch (ch : Fin 4096) (tick : BitVec 12) (s : State) : Host.Outcome State Fault Refusal :=
  .next (s.when s.live (fun s => s.rangeSwitch ch tick))

def execPeakFoundArmed (ch : Fin 4096) (tick : BitVec 12) (s : State) : Host.Outcome State Fault Refusal :=
  .next (s.when s.live (fun s => s.peakFoundArmed ch tick))

def execPeakFound (ch : Fin 4096) (tick : BitVec 12) (peak : Int) (s : State) : Host.Outcome State Fault Refusal :=
  .next (s.when s.live (fun s => s.peakFound ch tick peak))

def execResetEnd (ch : Fin 4096) (tick : BitVec 12) (s : State) : Host.Outcome State Fault Refusal :=
  .next (s.when s.live (fun s => s.resetEnd ch tick))

def execRearm (ch : Fin 4096) (tick : BitVec 12) (s : State) : Host.Outcome State Fault Refusal :=
  .next (s.when s.live (fun s => s.rearm ch tick))

def execSettleEnd (ch : Fin 4096) (tick : BitVec 12) (s : State) : Host.Outcome State Fault Refusal :=
  .next (s.when s.live (fun s => s.settleEnd ch tick))

def execControlLaneReceive (die : Fin 8) (link : Hub) (s : State) : Host.Outcome State Fault Refusal :=
  .next (s.when s.live (fun s => s.controlLaneReceive die link))

def execSettingSweep (die : Fin 8) (upsets : List (Nat × Fin 3 × BitVec 64)) (s : State) :
    Host.Outcome State Fault Refusal :=
  .next (s.settingSweep die upsets)

def execBlankRise (sample : BitVec 9) (late : BitVec 8) (s : State) : Host.Outcome State Fault Refusal :=
  .next (s.blankRise sample late)

def execMaskStart (die : Fin 8) (tick : BitVec 12) (s : State) : Host.Outcome State Fault Refusal :=
  .next (s.when s.live (fun s => s.maskStart die tick))

def execBlankFall (sample : BitVec 9) (late : BitVec 8) (s : State) : Host.Outcome State Fault Refusal :=
  .next (s.blankFall sample late)

def execMaskEnd (die : Fin 8) (tick : BitVec 12) (s : State) : Host.Outcome State Fault Refusal :=
  .next (s.when s.live (fun s => s.maskEndAt die tick))

def execInjectionStep (die : Fin 8) (tick : BitVec 12) (s : State) : Host.Outcome State Fault Refusal :=
  .next (s.when s.live (fun s => s.injectionStep die tick))

end Sys2Proof.Machine
end

