-- ==== Sys2Proof/Machine/Blocks.lean ====
section
/-!
DEFINITION. Blocks: the arbiter, the block ADC with its spare slice, and the hit FIFO (R84 to R94, R101).
-/

namespace Sys2Proof.Machine

def Block.slice (b : Block) (i : Nat) : AdcSlice := Tbl.get AdcSlice.init b.slices i

def Block.setSlice (b : Block) (i : Nat) (x : AdcSlice) : Block :=
  { b with slices := Tbl.set AdcSlice.init b.slices i x }

/-- Slices of a block ADC (R89). -/
def adcSlices : Nat := 17

/-- FE logic cycles of a conversion at the normal and at the low-power rate, in coarse ticks (R86). -/
def convTicks (low : Bool) : Nat := if low then 256 * 4 else 64 * 4

/-- Full coarse time at which a conversion completes (R86). -/
def Conv.due (c : Conv) : Nat := c.granted + convTicks c.low

/-- A slice converts neither a hit nor a reference level (R85, R90). -/
def Block.sliceFree (b : Block) (i now : Nat) : Bool :=
  (b.slice i).conv.isNone &&
    (match b.refPair with
     | some (k, t) => decide (t ≤ now) || (i != k && i != b.offline)
     | none => true)

/-- The offline slice can sample: it has finished the conversion it left the active set with, and neither a granted slot nor a
reference level occupies it (R90, R91). -/
def Block.offlineFree (b : Block) (now : Nat) : Bool :=
  b.sliceFree b.offline now && b.slices.all (fun p => match p.2.conv with
    | some c => !c.paired
    | none => true)

/-- The lowest-numbered active slice that is free (R85, R90). -/
def Block.freeSlice (b : Block) (now : Nat) : Option Nat :=
  (List.range adcSlices).find? (fun i => i != b.offline && b.sliceFree i now)

/-- Entries of a block FIFO (R93). -/
def blockFifo : Nat := 256

/-- A peak waits for its conversion: captured by now, and not granted (R84, R85). -/
def Held.waits (h : Held) (now : Nat) : Bool := !h.granted && decide (h.at_ ≤ now)

/-- The waiting peak of a cell that was captured first (R85): slot and peak. -/
def Cell.oldest (c : Cell) (now : Nat) : Option (Nat × Held) :=
  [0, 1, 2, 3].foldl (fun best i =>
    match c.slot i, best with
    | some h, none => if h.waits now then some (i, h) else none
    | some h, some (j, k) => if h.waits now && decide (h.age < k.age) then some (i, h) else some (j, k)
    | none, b => b) none

/-- The next cell in round-robin order after `rr` that holds a waiting peak (R85). -/
def State.nextCell (s : State) (blk rr now : Nat) : Option (Nat × Nat × Held) :=
  (List.range 64).findSome? (fun i =>
    let k := (rr + 1 + i) % 64
    (s.cell (blk * 64 + k)).oldest now |>.map (fun p => (k, p.1, p.2)))

/-- GRANT (R32, R85, R90, R92, R94): the next waiting peak goes to the lowest free active slice, at the rate and under the timing in
force, and reserves a FIFO entry; every 16th granted slot is sampled by the offline slice too, when that one is free. -/
def State.grant (s : State) (blk : Fin 64) (tick : BitVec 12) : State :=
  let b := s.block blk
  let now := s.coarse tick
  if s.awake && decide (b.fifo.length + b.reserved < blockFifo) && decide (b.resetTo ≤ now) then
    match b.freeSlice now, s.nextCell blk b.rr now with
    | some i, some (k, j, h) =>
      let c : Conv :=
        { cell := k, slot := j, held := h, granted := now, low := b.low, timing := (b.slice i).timing, freed := false
          paired := (b.grants + 1) % 16 == 0 && b.offlineFree now }
      let b' := { (b.setSlice i { b.slice i with conv := some c }) with
        rr := k, reserved := b.reserved + 1, grants := b.grants + 1, idleFrom := now }
      let s := s.setBlock blk b'
      let s := s.modCell (blk * 64 + k) (fun x => x.setSlot j (some { h with granted := true }))
      s.bump (figBlocks 2 blk)
    | _, _ => s
  else s

/-- A hold slot of a cell becomes free, and a cell that waited for one re-arms (R84, R86). -/
def Cell.freeHold (c : Cell) (j : Nat) : Cell :=
  { c.setSlot j none with phase := if c.phase = .waitSlot then .armed else c.phase }

/-- HOLD_SLOT_FREED (R86): nine FE logic cycles after the grant. -/
def State.holdSlotFreed (s : State) (blk : Fin 64) (i : Fin 17) (tick : BitVec 12) : State :=
  let b := s.block blk
  match (b.slice i).conv with
  | none => s
  | some c =>
    s.when (!c.freed && decide (c.granted + 36 ≤ s.coarse tick)) (fun s =>
      let s := s.setBlock blk (b.setSlice i { b.slice i with conv := some { c with freed := true } })
      s.modCell (blk * 64 + c.cell) (fun x => x.freeHold c.slot))

/-- ADC code of a held peak in microvolts above baseline, one LSB being 1 V / 4,096 and the range beginning 40 mV below the
baseline, with the converter's own error in LSB (R88). -/
def adcCode (peak err : Int) : Nat :=
  (clampInt 0 4095 (roundDiv ((peak + 40000) * 4096) 1000000 + err)).toNat

/-- The corrected code of a slice's raw code, rounded and clamped (R89). -/
def AdcSlice.correct (x : AdcSlice) (raw : Nat) : Nat :=
  let n := x.off + x.mul * raw
  (clampInt 0 4095 (if x.den < 0 then roundDiv (-n) (-x.den).toNat else roundDiv n x.den.toNat)).toNat

/-- A hit record (R101). -/
def hitRecord (lchan coarse fine tot amp : Nat) (flags : BitVec 8) (slice : Nat) : Rhr :=
  BitVec.ofNat 96 (0x1 * 2 ^ 92 + lchan % 512 * 2 ^ 83 + coarse % 2 ^ 24 * 2 ^ 59 + fine % 512 * 2 ^ 50 +
    tot % 16384 * 2 ^ 36 + amp % 4096 * 2 ^ 24 + flags.toNat * 2 ^ 16 + slice % 32 * 2 ^ 11)

/-- Add a pair to the sums: x the offline raw code, y the reference (R90). -/
def PairSums.add (p : PairSums) (x y : Int) : PairSums :=
  { n := p.n + 1, sx := p.sx + x, sy := p.sy + y, sxx := p.sxx + x * x, sxy := p.sxy + x * y, syy := p.syy + y * y }

/-- No other conversion of the block completes earlier (R93). -/
def Block.firstDue (b : Block) (t : Nat) : Bool :=
  b.slices.all (fun p => match p.2.conv with
    | some c => decide (t ≤ c.due)
    | none => true)

/-- CONVERSION_COMPLETE (R86, R88 to R90, R93, R101): once the conversion's own time has passed, the entry goes into its reserved
FIFO entry, in the order in which the conversions of the block complete. The two cycles on the way into the FIFO are not shown. -/
def State.conversionComplete (s : State) (blk : Fin 64) (i : Fin 17) (tick : BitVec 12) (err offErr : Int) : State :=
  let b := s.block blk
  let x := b.slice i
  match x.conv with
  | none => s
  | some c =>
    s.when (c.freed && decide (c.due ≤ s.coarse tick) && b.firstDue c.due) (fun s =>
      let raw := adcCode c.held.peak err
      let amp := x.correct raw
      let flags := c.held.flags ||| flagBit flagASAT (raw == 4095)
      let r := hitRecord (blk % 8 * 64 + c.cell) c.held.start c.held.fine c.held.tot amp flags i
      let e : FeRec :=
        { bits := r, poison := if c.held.poison then some true else none, slice := c.held.start / 4096 }
      let pairs := if c.paired then b.pairs.add (adcCode c.held.peak offErr) amp else b.pairs
      s.setBlock blk { (b.setSlice i { x with conv := none }) with
        fifo := b.fifo ++ [e], reserved := b.reserved - 1, pairs := pairs })

/-- Full coarse time from which the 64 idle cycles of a block count: its last grant, the end of its last mask, or the return to
ACTIVE (R90). -/
def State.idleSince (s : State) (blk : Nat) : Nat := max (s.block blk).idleFrom (s.fe (blk / 8)).activeFrom

/-- REFERENCE_PAIR (R90): after 64 idle cycles outside the mask, its guard and the lower power states, the offline slice and the
lowest free active slice are taken up by a reference level for one conversion. -/
def State.referencePair (s : State) (blk : Fin 64) (tick : BitVec 12) (offRaw : BitVec 12) : State :=
  let b := s.block blk
  let now := s.coarse tick
  match b.freeSlice now with
  | none => s
  | some i =>
    s.when (s.awake && !s.masked blk && decide (s.idleSince blk + 256 ≤ now) && b.offlineFree now) (fun s =>
      s.setBlock blk { b with
        pairs := b.pairs.add offRaw.toNat (Config.refLevelCode b.level), level := (b.level + 1) % 4
        refPair := some (i, now + convTicks b.low) })

/-- Pairs of a rotation step (R91). -/
def pairsPerStep : Nat := 4096

/-- The least-squares line of the pairs as an exact rational, offset and gain over a common denominator (R91). -/
def PairSums.fit (p : PairSums) : Int × Int × Int :=
  (p.sy * p.sxx - p.sx * p.sxy, p.n * p.sxy - p.sx * p.sy, p.n * p.sxx - p.sx * p.sx)

/-- RMS of the fit residuals in 1/256 LSB (R91). -/
def PairSums.rms (p : PairSums) (off mul den : Int) : Nat :=
  openSqrt 7 ((p.syy * den - off * p.sy - mul * p.sxy) * 65536 * den.sign).toNat (den.natAbs * p.n)

/-- A correction with its mismatch in 1/256 LSB. -/
structure SliceFit where
  off      : Int
  mul      : Int
  den      : Int
  mismatch : Nat
  deriving DecidableEq, Repr

/-- The correction that pairs give: their fit, or a free correction and mismatch where they determine no line (R91). -/
def State.fitPairs (s : State) (p : PairSums) : SliceFit × State :=
  let f := p.fit
  if f.2.2 = 0 then
    let a := s.takeFreeInt
    let b := a.2.takeFreeInt
    let d := b.2.takeFree
    let m := d.2.takeFree
    (⟨a.1, b.1, d.1 + 1, m.1⟩, m.2)
  else (⟨f.1, f.2.1, f.2.2, p.rms f.1 f.2.1 f.2.2⟩, s)

/-- A rotation step of a block: the offline slice takes its correction and rejoins, the next slice leaves, and every slice takes a
timing word for its next conversions (R31, R32, R91). A conversion that the leaving slice has in progress completes; until then the
slice gives no pairs. -/
def Block.rotate (b : Block) (f : SliceFit) (timing : BitVec 32) : Block :=
  let x := { b.slice b.offline with off := f.off, mul := f.mul, den := f.den }
  let b := { b.setSlice b.offline x with
    offline := (b.offline + 1) % adcSlices, pairs := PairSums.zero, mismatch := f.mismatch }
  (List.range adcSlices).foldl (fun b i => b.setSlice i { b.slice i with timing := timing }) b

/-- ROTATION_STEP (R91): after 4,096 pairs, with the mismatch published (R26, R456). -/
def State.rotationStep (s : State) (blk : Fin 64) : State :=
  let b := s.block blk
  s.when (s.live && decide (pairsPerStep ≤ b.pairs.n)) (fun s =>
    let r := s.fitPairs b.pairs
    let s := r.2.setBlock blk (b.rotate r.1 (s.fe (blk / 8)).atime)
    s.modFe (blk / 8) (fun f => { f with calqAdc := f.calqAdc.add blk r.1.mismatch }))

/-- FIFORST (R94): the FIFO, its reservations and the conversions behind them are discarded, a loss record is passed and the
event is logged. -/
def State.fifoRst (s : State) (blk : Fin 64) (tick : BitVec 12) : State :=
  s.when s.live (fun s =>
    let b := s.block blk
    let now := s.coarse tick
    let n := b.fifo.length + b.reserved
    let sampling := (List.range adcSlices).filterMap (fun i =>
      match (b.slice i).conv with
      | some c => if c.freed then none else some (c.cell, c.slot)
      | none => none)
    let b' := (List.range adcSlices).foldl (fun b i => b.setSlice i { b.slice i with conv := none }) b
    let s := s.setBlock blk { b' with fifo := [], reserved := 0, resetTo := now + 16 }
    let s := sampling.foldl (fun s p => s.modCell (blk * 64 + p.1) (fun x => x.freeHold p.2)) s
    let s := s.modFe (blk / 8) (fun f =>
      { f with lossQ := f.lossQ ++ [{ bits := lossRecord (blk % 8) now n, poison := none, slice := now / 4096 }] })
    let s := s.bump (figBlocks 5 blk)
    s.post .fiforst [(blk / 8, 3), (blk % 8, 3), (now, 24), (min n 0xFFFF, 16)])

/-! ### Meanings -/

def execGrant (blk : Fin 64) (tick : BitVec 12) (s : State) : Host.Outcome State Fault Refusal :=
  .next (s.grant blk tick)

def execHoldSlotFreed (blk : Fin 64) (slice : Fin 17) (tick : BitVec 12) (s : State) :
    Host.Outcome State Fault Refusal :=
  .next (s.when s.live (fun s => s.holdSlotFreed blk slice tick))

def execConversionComplete (blk : Fin 64) (slice : Fin 17) (tick : BitVec 12) (err offErr : Int) (s : State) :
    Host.Outcome State Fault Refusal :=
  .next (s.when s.live (fun s => s.conversionComplete blk slice tick err offErr))

def execReferencePair (blk : Fin 64) (tick : BitVec 12) (offRaw : BitVec 12) (s : State) :
    Host.Outcome State Fault Refusal :=
  .next (s.referencePair blk tick offRaw)

def execRotationStep (blk : Fin 64) (s : State) : Host.Outcome State Fault Refusal :=
  .next (s.rotationStep blk)

def execFifoRst (blk : Fin 64) (tick : BitVec 12) (s : State) : Host.Outcome State Fault Refusal :=
  .next (s.fifoRst blk tick)

end Sys2Proof.Machine
end

