-- ==== Sys2Proof/Machine/Gates.lean ====
section
/-!
DEFINITION. The lockstep gates: stamping, lateness and delivery of dual items (R355 to R358).
-/

namespace Sys2Proof.Machine

/-- Place of a gate in the order of R356. -/
def Gate.code : Gate → Nat
  | .region r => r
  | .tcmd => 8
  | .always => 9

/-- Largest accepted lateness K in steps (R356). -/
def Gate.k : Gate → Nat
  | .region _ => 32
  | .tcmd | .always => 2

/-- Deferral D in steps (R356). -/
def Gate.d : Gate → Nat
  | .region _ => 36
  | .tcmd | .always => 4

/-- Items that a hub has stamped at a gate. -/
def State.gateCount (s : State) (h : Hub) (g : Gate) : Nat :=
  match h with
  | .a => Tbl.get 0 s.red.cntA g.code
  | .b => Tbl.get 0 s.red.cntB g.code

def State.gateCounted (s : State) (h : Hub) (g : Gate) : State :=
  match h with
  | .a => { s with red := { s.red with cntA := Tbl.set 0 s.red.cntA g.code (s.gateCount .a g + 1) } }
  | .b => { s with red := { s.red with cntB := Tbl.set 0 s.red.cntB g.code (s.gateCount .b g + 1) } }

def GateItem.stamp (i : GateItem) : Hub → Option Nat
  | .a => i.stA
  | .b => i.stB

def GateItem.setStamp (i : GateItem) (h : Hub) (n : Nat) : GateItem :=
  match h with
  | .a => { i with stA := some n }
  | .b => { i with stB := some n }

def GateItem.missed (i : GateItem) : Hub → Bool
  | .a => i.missA
  | .b => i.missB

def GateItem.setMissed (i : GateItem) : Hub → GateItem
  | .a => { i with missA := true }
  | .b => { i with missB := true }

/-- Whether a hub's inputs count: both in lockstep, the active hub alone otherwise (R378). -/
def State.hears (s : State) (h : Hub) : Bool := s.red.lockstep || h == s.red.active

/-- A hub stamps the next item of a gate with the step in progress (R355). A copy of an item that the partner has stamped
joins it; the copy of an item already delivered is dropped (R357). -/
def State.gateStamp (s : State) (h : Hub) (g : Gate) (x : Item) : State :=
  if !s.hears h then s
  else
    let n := s.gateCount h g
    let t := s.gateCounted h g
    if s.red.gates.any (fun i => i.gate == g && i.idx == n) then
      { t with red := { t.red with gates := t.red.gates.map (fun i =>
          if i.gate = g ∧ i.idx = n ∧ i.missed h = false then i.setStamp h s.clock.step else i) } }
    else if s.red.lockstep && decide (n < s.gateCount h.other g) then t
    else
      let i : GateItem := { gate := g, idx := n, item := x, stA := none, stB := none, missA := false, missB := false }
      { t with red := { t.red with gates := t.red.gates ++ [i.setStamp h s.clock.step] } }

/-- The earlier stamp of an item (R355). -/
def GateItem.earliest (i : GateItem) : Nat :=
  match i.stA, i.stB with
  | some a, some b => min a b
  | some a, none => a
  | none, some b => b
  | none, none => 0

/-- Figure of REDUND (R383). -/
def figRedund (row : Nat) (q : Nat := 0) (hub : Nat := 0) (idx : Nat := whole) : Fig := ⟨0x09, row, q, hub, idx⟩

/-- At the boundary that begins step n, a hub that has not stamped an item by the end of step e + K reports GATEMISS (R357). -/
def State.gateMiss (s : State) (h : Hub) : State :=
  if !s.red.lockstep then s
  else
    let late := fun (i : GateItem) =>
      (i.stamp h).isNone && !i.missed h && decide (i.earliest + i.gate.k < s.clock.step)
    (s.red.gates.filter late).foldl
      (fun s i =>
        ((s.localErr h .gatemiss).bump (figRedund 5 0 (h.idx + 1) i.gate.code)).post .gatemiss
          [(i.gate.code, 8), (i.idx, 32)] (some h))
      { s with red := { s.red with gates := s.red.gates.map (fun i => if late i then i.setMissed h else i) } }

/-- Items due at the boundary that begins the step in progress, in the order of the gates and of the items, and those that
stay (R355, R356); the peak lateness of each hub's own copy is kept (R383). -/
def State.gateDue (s : State) : List GateItem × State :=
  let due := fun (i : GateItem) => decide (i.earliest + i.gate.d ≤ s.clock.step)
  let out := s.red.gates.filter due
  let ordered := (List.range 10).flatMap (fun c => out.filter (fun i => i.gate.code == c))
  let late := fun (s : State) (h : Hub) (i : GateItem) =>
    s.peak (figRedund 5 2 (h.idx + 1) i.gate.code) ((i.stamp h).getD i.earliest - i.earliest)
  let s := ordered.foldl (fun (s : State) (i : GateItem) => late (late s .a i) .b i) s
  (ordered, { s with red := { s.red with gates := s.red.gates.filter (fun i => !due i) } })

end Sys2Proof.Machine
end

