-- ==== Sys2Proof/Machine/Regions.lean ====
section
/-!
DEFINITION. Regions: the region arbiter, the derandomiser, slice markers and the region links (R95 to R110, R115, R116).
-/

namespace Sys2Proof.Machine

/-- KIND of a raw record (R103). -/
def kindOf (r : Rhr) : Nat := bitsAt r.toNat 92 4

/-- Kinds that a slice marker's COUNT counts (R104). -/
def countedKind (k : Nat) : Bool := k == 1 || k == 4 || k == 8 || k == 9

/-- A record is written into the derandomiser and counted for its slice; a poisoned one is not counted (R98, R104). -/
def Fe.write (f : Fe) (r : FeRec) : Fe :=
  let counts :=
    if r.poison.isNone && countedKind (kindOf r.bits) then Tbl.set 0 f.counts r.slice (Tbl.get 0 f.counts r.slice + 1)
    else f.counts
  ({ f with dr := f.dr ++ [r], counts := counts }.prune).watermark

/-- The next non-empty block FIFO after the one served last, not serving one twice in a cycle (R96). -/
def State.nextFifo (s : State) (die : Nat) (rr : Nat) (used : Option Nat) : Option Nat :=
  ((List.range 8).map (fun i => (rr + 1 + i) % 8)).find?
    (fun b => used != some b && !(s.block (die * 8 + b)).fifo.isEmpty)

/-- A die has a record for its arbiter that goes before a slice marker (R96). -/
def State.waitsToWrite (s : State) (die : Nat) : Bool :=
  !(s.fe die).lossQ.isEmpty || !(s.fe die).eventQ.isEmpty || (List.range 8).any (fun b => !(s.block (die * 8 + b)).fifo.isEmpty)

/-- One write of the region arbiter by priority: loss records, events, block FIFOs, a slice marker that is due when nothing else
waits (R96). The result names the FIFO served. -/
def State.arbitrate (s : State) (die : Nat) (used : Option Nat) : Option Nat × State :=
  let f := s.fe die
  if drCapacity ≤ f.dr.length then (used, s)
  else
    match f.lossQ, f.eventQ with
    | r :: l, _ => (used, s.setFe die ({ f with lossQ := l }.write r))
    | [], r :: l => (used, s.setFe die ({ f with eventQ := l }.write r))
    | [], [] =>
      match s.nextFifo die f.rrFifo used with
      | none =>
        match f.markQ with
        | r :: l => (used, s.setFe die ({ f with markQ := l }.write r))
        | [] => (used, s)
      | some b =>
        match (s.block (die * 8 + b)).fifo with
        | [] => (used, s)
        | r :: l =>
          let s := s.modBlock (die * 8 + b) (fun x => { x with fifo := l })
          (some b, s.setFe die ({ f with rrFifo := b }.write r))

/-- DERANDOMISER_WRITE (R96): up to two records in one FE logic cycle. -/
def State.derandomiserWrite (s : State) (die : Fin 8) : State :=
  let p := s.arbitrate die none
  (p.2.arbitrate die p.1).2

/-- A full slice has a coarse tick in a holdover interval of the die (R69, R104). -/
def Fe.holdover (f : Fe) (slice : Nat) : Bool :=
  (match f.hold with
   | some t => decide (t < (slice + 1) * 4096)
   | none => false) ||
  f.holds.any (fun p => decide (p.1 < (slice + 1) * 4096) && decide (slice * 4096 ≤ p.2))

/-- Something of a slice or an earlier one is held and not yet written (R97). -/
def State.holdsSlice (s : State) (die : Nat) (slice : Nat) : Bool :=
  let f := s.fe die
  let old := fun (t : Nat) => decide (t / 4096 ≤ slice)
  s.cells.any (fun p =>
    decide (p.1 / 512 = die) &&
      ((p.2.busyHit || decide (s.coarse0 < p.2.capAt)) && old p.2.start ||
        [0, 1, 2, 3].any (fun i => match p.2.slot i with
          | some h => old h.start
          | none => false))) ||
  (List.range 8).any (fun b =>
    let x := s.block (die * 8 + b)
    x.fifo.any (fun r => decide (r.slice ≤ slice)) ||
      x.slices.any (fun q => match q.2.conv with
        | some c => old c.held.start
        | none => false)) ||
  f.eventQ.any (fun r => decide (r.slice ≤ slice)) || f.lossQ.any (fun r => decide (r.slice ≤ slice)) ||
    f.maskAt.any old || f.injDue.any old

/-- A slice marker of an FE die (R104). -/
def feMarker (slice count : Nat) (hold : Bool) : Rhr :=
  BitVec.ofNat 96 (0x3 * 2 ^ 92 + slice / 4096 % 2 ^ 32 * 2 ^ 60 + slice % 4096 * 2 ^ 48 + count % 2 ^ 24 * 2 ^ 24 +
    (if hold then 2 ^ 23 else 0))

/-- SLICE_MARKER_DUE (R96, R97, R444): the marker of the next slice is due when nothing of it is left unwritten and the marker
before it is written; the arbiter writes it at once when no other record waits, else DERANDOMISER_WRITE does after those. -/
def State.sliceMarkerDue (s : State) (die : Fin 8) : State :=
  let f := s.fe die
  let n := f.nextMarker
  s.when (s.live && decide (n < s.fullSlice) && !f.stopped && f.markQ.isEmpty && !s.holdsSlice die n) (fun s =>
    let r : FeRec := { bits := feMarker n (Tbl.get 0 f.counts n) (f.holdover n), poison := none, slice := n }
    let s := s.setFe die { f with counts := Tbl.set 0 f.counts n 0, nextMarker := n + 1, markQ := [r] }
    s.when (!s.waitsToWrite die) (fun s => (s.arbitrate die none).2))

/-- DRRST (R98): the derandomiser is emptied, the records that no frame holds are counted in one loss record. -/
def State.drRst (s : State) (die : Fin 8) (tick : BitVec 12) : State :=
  s.when s.live (fun s =>
    let f := s.fe die
    let now := s.coarse tick
    let framed := max f.linkA.read f.linkB.read
    let n := f.drEnd - max framed f.drBase
    let e := f.drEnd
    let loss : FeRec := { bits := lossRecord 0x8 now n, poison := none, slice := now / 4096 }
    let s := s.setFe die { f with
      drBase := e, dr := [], lossQ := f.lossQ ++ [loss]
      linkA := { f.linkA with read := e }, linkB := { f.linkB with read := e } }.watermark
    s.post .drrst [(die.val, 3), (now, 24), (min n 0xFFFF, 16)])

/-! ### The die side of a link -/

/-- The hub's side of a persistent failure: it takes no more frames of the link, and reports RLINK (R110). -/
def State.rlinkLost (s : State) (die : Fin 8) (h : Hub) : State :=
  let s := s.modLink die h (fun l => { l with hubFailed := true, hubDrhi := false })
  (s.localErr h (.rlink die)).post .rlink [(die.val, 3)] (some h)

/-- A persistent failure declared by the FE die: it stops the link and the hub at the far end reports RLINK (R100, R110). A
failure that the hub has declared adds nothing. -/
def State.dieFails (s : State) (die : Fin 8) (h : Hub) : State :=
  if (s.link die h).failed then s
  else
    let known := (s.link die h).hubFailed
    let s := s.modFe die (fun f => f.failLink h)
    if known then s else s.rlinkLost die h

/-- A persistent failure declared by the hub: RLINK, and a failure message to the die (R110). -/
def State.hubFails (s : State) (die : Fin 8) (h : Hub) : State :=
  if (s.link die h).hubFailed then s else (s.say die h .failure).rlinkLost die h

/-- Records of a link neither sent nor acknowledged: those of the derandomiser past its read pointer and those of the frames it
holds for replay (R100). -/
def Fe.backlog (f : Fe) (h : Hub) : Nat :=
  let l := f.link h
  f.drEnd - max l.read f.drBase + (l.replay.map (·.held)).sum

/-- LAG_RELEASE (R100). -/
def State.lagRelease (s : State) (die : Fin 8) (h : Hub) : State :=
  let f := s.fe die
  s.when (s.live && !s.node.simplex && f.serves h && f.serves h.other &&
      decide (f.backlog h.other + f.lag * drSixteenth < f.backlog h))
    (fun s => s.dieFails die h)

/-- A record as the formatter sends it: a poisoned one leaves as a filler of kind 0xE (R29, R62, R103). -/
def FeRec.sent (r : FeRec) : Rhr :=
  match r.poison with
  | none => r.bits
  | some true => BitVec.ofNat 96 (0xE * 2 ^ 92 + bitsAt r.bits.toNat 83 9 * 2 ^ 83)
  | some false => BitVec.ofNat 96 (0xE * 2 ^ 92 + 0x1FF * 2 ^ 83)

/-- A filler of an incomplete frame (R103). -/
def fillerRecord : Rhr := BitVec.ofNat 96 (0xF * 2 ^ 92)

/-- Records of a frame, and frames of a replay buffer (R106, R108). -/
def frameRecords : Nat := 42
def replayFrames : Nat := 32

/-- FRAME_SEND (R106, R108, R116): a frame to be sent again goes first; else a new one, padded with fillers. -/
def State.frameSend (s : State) (die : Fin 8) (h : Hub) : State :=
  let f := s.fe die
  let l := f.link h
  if !s.awake || l.failed || l.paused || l.heard then s
  else
    match l.resend with
    | x :: rest =>
      let y := { x with sent := x.sent + 1, drhi := f.drhi }
      s.setLink die h { l with
        resend := rest, wire := l.wire ++ [y], replay := l.replay.map (fun z => if z.seq = x.seq then y else z) }
    | [] =>
      if replayFrames ≤ l.replay.length then s
      else
        let recs := ((f.dr.drop (l.read - f.drBase)).take frameRecords).map FeRec.sent
        let y : Frame :=
          { seq := l.seq, recs := recs ++ List.replicate (frameRecords - recs.length) fillerRecord, drhi := f.drhi
            upto := max l.read f.drBase + recs.length, held := recs.length, sent := 1 }
        s.setLink die h { l with
          seq := l.seq + 1, read := max l.read f.drBase + recs.length, replay := l.replay ++ [y], wire := l.wire ++ [y] }

/-- A retry of the FE die: 2^RLERR of them within one epoch make a persistent failure (R108 to R110). -/
def State.retry (s : State) (die : Fin 8) (h : Hub) (again : List Frame) : State :=
  let l := s.link die h
  let s := (s.setLink die h { l with resend := again, retries := l.retries + 1 }).bump
    (figBlocks 7 (die * 2 + h.idx))
  if 2 ^ (s.fe die).rlerr ≤ l.retries + 1 then s.dieFails die h else s

/-- ACK (R98, R108): every frame up to the acknowledged one is freed. -/
def State.ackReceive (s : State) (die : Fin 8) (h : Hub) (seq : BitVec 12) : State :=
  s.when ((s.lane die h).contains (.ack seq)) (fun s =>
    let s := s.setLane die h ((s.lane die h).erase (.ack seq))
    let l := s.link die h
    match l.replay.find? (fun x => x.seq == seq) with
    | none => s
    | some x =>
      let keep := fun (y : Frame) => laterMod 12 y.seq.toNat seq.toNat
      s.modFe die (fun f => (f.setLink h { l with
        replay := l.replay.filter keep, resend := l.resend.filter keep, acked := max l.acked x.upto }).prune.watermark))

/-- NAK (R108): every frame from the failed one on is sent again. -/
def State.nakReceive (s : State) (die : Fin 8) (h : Hub) (seq : BitVec 12) : State :=
  s.when ((s.lane die h).contains (.nak seq)) (fun s =>
    let s := s.setLane die h ((s.lane die h).erase (.nak seq))
    let l := s.link die h
    if l.failed then s
    else s.retry die h (l.replay.filter (fun x => reachedMod 12 x.seq.toNat seq.toNat)))

/-- ACK_TIMEOUT (R109, R116): the die sends again from the oldest unacknowledged frame. -/
def State.ackTimeout (s : State) (die : Fin 8) (h : Hub) : State :=
  let l := s.link die h
  s.when (s.awake && !l.failed && !l.paused && !l.heard && !l.replay.isEmpty) (fun s => s.retry die h l.replay)

/-! ### The hub side of a link -/

/-- A 66-bit block of a region link (R106, R107): a data block with sync header 0b01, or a control block with sync header 0b10,
its type byte and 56 bits. -/
inductive LinkBlock where
  | data (bytes : BitVec 64)
  | control (type : Byte) (bits : BitVec 56)
  deriving DecidableEq, Repr

/-- Sync header of a block (R106). -/
def LinkBlock.sync : LinkBlock → BitVec 2
  | .data _ => 0b01
  | .control .. => 0b10

/-- The data blocks of a frame: its 42 records of 12 bytes in order, 8 bytes a block (R106). -/
def dataBlocks (recs : List Rhr) : List LinkBlock :=
  let bs := recs.flatMap (fun r => leBytes 12 r.toNat)
  (List.range 63).map (fun i => .data (BitVec.ofNat 64 (leAt bs (8 * i) 8)))

/-- Trailer bits [55:32]: sequence number, DRHI and reserved bits (R106). -/
def trailerTop (seq : BitVec 12) (drhi : Bool) : Nat := seq.toNat * 4096 + (if drhi then 2048 else 0)

/-- Image of a frame as it is checked: 63 data blocks of 8 bytes and trailer bits [55:32] (R106). -/
def frameBytes (recs : List Rhr) (seq : BitVec 12) (drhi : Bool) : List Byte :=
  recs.flatMap (fun r => leBytes 12 r.toNat) ++ leBytes 3 (trailerTop seq drhi)

/-- The 64 blocks of a frame; block i travels on lane i mod 4 (R106). -/
def Frame.blocks (x : Frame) : List LinkBlock :=
  dataBlocks x.recs ++
    [.control 0x78 (BitVec.ofNat 56 (trailerTop x.seq x.drhi * 2 ^ 32 + crc32c (frameBytes x.recs x.seq x.drhi)))]

/-- The blocks of a frame that one lane carries (R106). -/
def Frame.onLane (x : Frame) (lane : Nat) : List LinkBlock :=
  (x.blocks.zipIdx.filter (fun p => p.2 % 4 == lane)).map (·.1)

/-- The alignment marker of a lane (R107). -/
def markerBlock (lane : Nat) (seq : BitVec 16) : LinkBlock :=
  .control 0x4B (BitVec.ofNat 56 (lane % 4 * 2 ^ 54 + seq.toNat * 2 ^ 38))

/-- Whether the CRC check misses an error pattern of 504 data bytes, 3 trailer bytes and the CRC (R106, R108). -/
def undetected (err : BitVec 4096) : Bool :=
  crcRaw 0 (leBytes 507 err.toNat) == bitsAt err.toNat 4056 32

/-- A record as the hub receives it, its failed parity words marked (R101, R117). -/
def receivedRec (r : Rhr) (i : Nat) (err : BitVec 4096) (bad : List (Nat × Fin 3)) : SRec :=
  { bits := r ^^^ BitVec.ofNat 96 (bitsAt err.toNat (96 * i) 96)
    ok2 := !bad.contains (i, 2), ok1 := !bad.contains (i, 1), ok0 := !bad.contains (i, 0) }

/-- The sequence number that the hub reads in a trailer: bits [55:44] under the error (R106). -/
def seenSeq (x : Frame) (err : BitVec 4096) : BitVec 12 := x.seq ^^^ BitVec.ofNat 12 (bitsAt err.toNat 4044 12)

/-- The DRHI bit that the hub reads in a trailer (R99, R106). -/
def seenDrhi (x : Frame) (err : BitVec 4096) : Bool := x.drhi != bitAt err.toNat 4043

/-- The CRC check of a frame that the hub does not discard unseen. -/
def State.judgeFrame (s : State) (die : Fin 8) (h : Hub) (l : RLink) (x : Frame) (err : BitVec 4096)
    (bad : List (Nat × Fin 3)) : State :=
  if err = 0 || undetected err then
    let l := { l with hubDrhi := seenDrhi x err }
    if seenSeq x err = l.expect then
      let s := (s.setLink die h { l with expect := l.expect + 1, failRow := 0 }).say die h (.ack l.expect)
      let recs := (x.recs.zipIdx.map (fun p => receivedRec p.1 p.2 err bad)).filter (fun r => kindOf r.bits != 0xF || !r.ok2)
      recs.foldl (fun s r => s.gateStamp h (.region die) (.raw die r)) s
    else s.setLink die h l
  else
    let s := (s.setLink die h { l with waitRetry := some l.expect, failRow := l.failRow + 1 }).say die h (.nak l.expect)
    if 4 ≤ l.failRow + 1 then s.hubFails die h else s

/-- FRAME_RECEIVE (R106, R108, R110): a good expected frame passes its records to the gate and is acknowledged; a failed one
is refused, with every frame after it until the retransmission. -/
def State.frameReceive (s : State) (die : Fin 8) (h : Hub) (err : BitVec 4096) (bad : List (Nat × Fin 3)) : State :=
  let l := s.link die h
  match l.wire with
  | [] => s
  | x :: rest =>
    let s := s.setLink die h { l with wire := rest }
    let l := { l with wire := rest }
    if l.retrain || l.hubFailed then s
    else
      match l.waitRetry with
      | some q =>
        if seenSeq x err != q || x.sent == 1 then s else s.judgeFrame die h { l with waitRetry := none } x err bad
      | none => s.judgeFrame die h l x err bad

/-- An alignment loss (R107, R110): the first of an epoch starts a retraining, the second is a persistent failure. Frames on
the lanes are lost. -/
def State.alignmentLoss (s : State) (die : Fin 8) (h : Hub) : State :=
  let l := s.link die h
  if l.hubFailed || l.retrain then s
  else
    let s := (s.setLink die h { l with aligns := l.aligns + 1, wire := [] }).bump (figBlocks 8 (die * 2 + h.idx))
    if 2 ≤ l.aligns + 1 then s.hubFails die h
    else (s.modLink die h (fun l => { l with retrain := true })).say die h .retrain

/-- Largest skew between lanes that the hub aligns, in blocks (R107). -/
def maxSkew : Nat := 32

/-- What the hub sees of a marker fits (R107): each lane's number in its place and the four sequences equal modulo 2^16. -/
def linkMarkersAgree (lanes : List (BitVec 2)) (seqs : List (BitVec 16)) : Bool :=
  lanes == [0, 1, 2, 3] && seqs.length == 4 && seqs.all (fun q => q == seqs.headD 0)

/-- ALIGNMENT_MARKER (R107): every lane inserts the marker of the common sequence; the hub sees the lane numbers and sequences of
the four, and the skew between them. A skew beyond 32 blocks, or sequences that disagree at two consecutive markers, is an
alignment loss. -/
def State.alignmentMarker (s : State) (die : Fin 8) (h : Hub) (lanes : List (BitVec 2)) (seqs : List (BitVec 16)) (skew : Nat) :
    State :=
  if !s.awake then s
  else
    let l := s.link die h
    let torn := !linkMarkersAgree lanes seqs
    let s := s.setLink die h { l with marker := l.marker + 1, torn := torn }
    if decide (maxSkew < skew) || torn && l.torn then
      (s.modLink die h (fun l => { l with torn := false })).alignmentLoss die h
    else s

/-- Starting settings of a region link's lanes (R31, R304, R305): the transmitter's fields in the band of the die, the receiver's in
the band of the hub. -/
def State.linkPresets (s : State) (die : Nat) (h : Hub) : Tbl (BitVec 64) :=
  if (s.table idPresets).isEmpty then []
  else
    let entry := fun (b k : Nat) => numAt (s.table idPresets) (16 + 768 * b + 8 * (32 + 8 * die + 4 * h.idx + k)) 8
    (List.range 4).foldl (fun (m : Tbl (BitVec 64)) k =>
      let tx := entry (s.band (die + 1)) k
      let rx := entry (s.band (hubDie h)) k
      Tbl.set linkPreset m k (BitVec.ofNat 64 (bitsAt tx 51 13 * 2 ^ 51 + bitsAt rx 40 11 * 2 ^ 40))) []

/-- RETRAINING_DONE (R110, R113) of a retraining that the die has heard of: timeouts run again; a failed link carries records from the write point on. -/
def State.retrainingDone (s : State) (die : Fin 8) (h : Hub) : State :=
  let f := s.fe die
  let l := f.link h
  s.when (l.retrain && l.heard) (fun s =>
    let s := (List.range 4).foldl (fun s k => s.laneResult (some h) (32 + 8 * die + 4 * h.idx + k)) s
    let l := { l with retrain := false, heard := false, hubFailed := false, torn := false, presets := s.linkPresets die h }
    if l.failed then
      s.setLink die h { l with
        failed := false, read := f.drEnd, acked := f.drEnd, expect := l.seq, waitRetry := none, failRow := 0 }
    else s.setLink die h { l with resend := l.replay, waitRetry := none })

/-- RETRAIN_TIMEOUT (R110): a retraining not complete after 100 µs is a persistent failure. -/
def State.retrainTimeout (s : State) (die : Fin 8) (h : Hub) : State :=
  let l := s.link die h
  s.when l.retrain (fun s => (s.setLink die h { l with retrain := false, heard := false }).hubFails die h)

/-- PAUSE (R116). -/
def State.pauseReceive (s : State) (die : Fin 8) (h : Hub) : State :=
  s.when ((s.lane die h).contains .pause) (fun s =>
    (s.setLane die h ((s.lane die h).erase .pause)).modLink die h (fun l => { l with paused := true }))

/-- RESUME (R116). -/
def State.resumeReceive (s : State) (die : Fin 8) (h : Hub) : State :=
  s.when ((s.lane die h).contains .resume) (fun s =>
    (s.setLane die h ((s.lane die h).erase .resume)).modLink die h (fun l => { l with paused := false }))

/-! ### Meanings -/

def execDerandomiserWrite (die : Fin 8) (s : State) : Host.Outcome State Fault Refusal :=
  .next (s.when s.live (fun s => s.derandomiserWrite die))

def execSliceMarkerDue (die : Fin 8) (s : State) : Host.Outcome State Fault Refusal :=
  .next (s.sliceMarkerDue die)

def execDrRst (die : Fin 8) (tick : BitVec 12) (s : State) : Host.Outcome State Fault Refusal :=
  .next (s.drRst die tick)

def execLagRelease (die : Fin 8) (link : Hub) (s : State) : Host.Outcome State Fault Refusal :=
  .next (s.lagRelease die link)

def execFrameSend (die : Fin 8) (link : Hub) (s : State) : Host.Outcome State Fault Refusal :=
  .next (s.frameSend die link)

def execAlignmentMarker (die : Fin 8) (link : Hub) (lanes : List (BitVec 2)) (seqs : List (BitVec 16)) (skew : Nat) (s : State) :
    Host.Outcome State Fault Refusal :=
  .next (s.alignmentMarker die link lanes seqs skew)

def execFrameReceive (die : Fin 8) (link : Hub) (err : BitVec 4096) (badWords : List (Nat × Fin 3)) (s : State) :
    Host.Outcome State Fault Refusal :=
  .next (s.when s.live (fun s => s.frameReceive die link err badWords))

def execAck (die : Fin 8) (link : Hub) (seq : BitVec 12) (s : State) : Host.Outcome State Fault Refusal :=
  .next (s.when s.live (fun s => s.ackReceive die link seq))

def execNak (die : Fin 8) (link : Hub) (seq : BitVec 12) (s : State) : Host.Outcome State Fault Refusal :=
  .next (s.when s.live (fun s => s.nakReceive die link seq))

def execAckTimeout (die : Fin 8) (link : Hub) (s : State) : Host.Outcome State Fault Refusal :=
  .next (s.ackTimeout die link)

def execAlignmentLoss (die : Fin 8) (link : Hub) (s : State) : Host.Outcome State Fault Refusal :=
  .next (s.when s.live (fun s => s.alignmentLoss die link))

/-- MARKER_TIMEOUT: a lane's marker that fails to arrive is an alignment loss (R110). -/
def execMarkerTimeout (die : Fin 8) (link : Hub) (s : State) : Host.Outcome State Fault Refusal :=
  .next (s.when s.awake (fun s => s.alignmentLoss die link))

def execRetrainingDone (die : Fin 8) (link : Hub) (s : State) : Host.Outcome State Fault Refusal :=
  .next (s.when s.live (fun s => s.retrainingDone die link))

def execRetrainTimeout (die : Fin 8) (link : Hub) (s : State) : Host.Outcome State Fault Refusal :=
  .next (s.when s.live (fun s => s.retrainTimeout die link))

def execPause (die : Fin 8) (link : Hub) (s : State) : Host.Outcome State Fault Refusal :=
  .next (s.when s.live (fun s => s.pauseReceive die link))

def execResume (die : Fin 8) (link : Hub) (s : State) : Host.Outcome State Fault Refusal :=
  .next (s.when s.live (fun s => s.resumeReceive die link))

end Sys2Proof.Machine
end

