-- ==== Sys2Proof/Machine/Ingress.lean ====
section
/-!
DEFINITION. Hub ingress and the sorter: sheaves, their pages, their context, region fences, and the distributor with placement
and stealing (R112, R115 to R125, R139, R141).
-/

namespace Sys2Proof.Machine

/-- Figure of INGRESS (R142). -/
def figIngress (row : Nat) (idx : Nat := whole) (q : Nat := 0) : Fig := ⟨0x02, row, q, 0, idx⟩

/-! ### The page pool -/

def HubCore.freePages (c : HubCore) : List Nat :=
  (List.range sheafPages).filter (fun p => !c.usedPages.contains p)

/-- Take a free page of the pool (R123); which one the manual leaves open. A pool without a free page gives page 0xFFFF. -/
def State.takePage (s : State) : Nat × State :=
  let free := s.core.freePages
  match free[Config.freePagePick free % free.length]? with
  | none => (0xFFFF, s)
  | some p =>
    (p, s.modCore (fun c => { c with usedPages := c.usedPages ++ [p], lowPages := min c.lowPages (free.length - 1) }))

/-- Return pages to the pool (R123). -/
def State.freePagesOf (s : State) (ps : List Nat) : State :=
  s.modCore (fun c => { c with usedPages := c.usedPages.filter (fun p => !ps.contains p) })

/-- Pages that a number of records needs: 322 record slots in the first page, 340 in each later one (R123). -/
def pagesFor (n : Nat) : Nat :=
  if n ≤ 322 then 1 else 1 + (n - 322 + 339) / 340

/-! ### Slice comparison (R118) -/

/-- How far slice `x` lies ahead of reference slice `r`; negative when behind it. -/
def sliceAhead (r x : Nat) : Int :=
  let b := (r + 4096 - x % 4096) % 4096
  if b ≤ 2047 then -(b : Int) else 4096 - (b : Int)

/-- The reference slice: the newest open sheaf's, or the last slice closed. -/
def Sorter.refSlice (x : Sorter) : Nat :=
  match x.opened.getLast? with
  | some sh => sh.slice.toNat
  | none => x.last.toNat

/-- How many slices a slice lies after the last slice closed; not positive when at or before it. -/
def Sorter.after (x : Sorter) (slice : Nat) : Int :=
  sliceAhead x.refSlice slice - sliceAhead x.refSlice x.last.toNat

/-- Full number of a slice that a record shows, from the last slice closed. -/
def State.fullOf (s : State) (x : Sorter) (slice : Nat) : Nat := (s.sliceNear x.lastEp x.last.toNat + x.after slice).toNat

/-! ### Sheaves -/

/-- A sheaf just opened. -/
def newSheaf (region slice page : Nat) : Sheaf :=
  { region := region, epoch := 0, slice := BitVec.ofNat 12 slice, recs := [], placed := 0, nlost := 0, ctx := []
    hold := false, fence := false, ctxovf := false, cap := false, forced := false, pages := [page], run := 0 }

/-- Largest number of records of a sheaf (R121). -/
def sheafCap : Nat := 8192

/-- Open a sheaf for a slice, in ascending slice order among the open ones (R118). -/
def State.openSheaf (s : State) (r slice : Nat) : State :=
  let p := s.takePage
  let sh := newSheaf r slice p.1
  p.2.modSorter r (fun x =>
    let before := x.opened.filter (fun y => decide (x.after y.slice.toNat < x.after slice))
    let behind := x.opened.filter (fun y => !decide (x.after y.slice.toNat < x.after slice))
    { x with opened := before ++ [sh] ++ behind })

/-- Append a record to a sheaf, dropping it at the cap (R118, R121); `counted` says whether it counts as placed (R119). DESIGN
CHOICE: a loss record of the sorter that meets the cap is one record dropped, so NLOST grows by 1 and not by its COUNT (log 151). -/
def Sheaf.add (sh : Sheaf) (rec_ : SRec) (counted : Bool) : Sheaf :=
  let sh := { sh with placed := sh.placed + (if counted then 1 else 0) }
  if sheafCap ≤ sh.recs.length then { sh with nlost := sh.nlost + 1, cap := true }
  else { sh with recs := sh.recs ++ [rec_] }

/-- Append a record to the open sheaf of a slice, taking a page when it is full (R118, R121, R123). -/
def State.appendTo (s : State) (r slice : Nat) (rec_ : SRec) (counted : Bool) : State :=
  match (s.sorter r).opened.find? (fun y => y.slice.toNat == slice) with
  | none => s
  | some sh =>
    let sh' := sh.add rec_ counted
    let s := s.when (sh'.cap && !sh.cap) (fun s => s.bump (figIngress 1 r 2))
    let p := if sh.pages.length < pagesFor sh'.recs.length then
        let q := s.takePage
        (sh'.pages ++ [q.1], q.2)
      else (sh'.pages, s)
    p.2.modSorter r (fun x =>
      { x with opened := x.opened.map (fun y => if y.slice.toNat = slice then { sh' with pages := p.1 } else y) })

/-- The loss record that the sorter adds to a sheaf (R112, R119). -/
def sheafLoss (source slice count : Nat) : SRec :=
  { bits := lossRecord source (slice * 4096) count, ok2 := true, ok1 := true, ok0 := true }

/-- Close the open sheaf of a slice with its epoch and HOLD bit (R119). -/
def State.closeSheaf (s : State) (r slice : Nat) (epoch : BitVec 32) (g : Sheaf → Sheaf) : State :=
  s.modSorter r (fun x =>
    match x.opened.find? (fun y => y.slice.toNat == slice) with
    | none => x
    | some sh =>
      let sh' := g { sh with epoch := epoch, nlost := sh.nlost + x.carry }
      { x with
        opened := x.opened.filter (fun y => y.slice.toNat != slice), closed := x.closed ++ [sh'], carry := 0
        placed := Tbl.set 0 x.placed slice sh.placed, last := BitVec.ofNat 12 slice, lastEp := epoch })

/-- Epoch of the slice after the last one closed, advanced across a wrap to slice 0 (R119). -/
def Sorter.nextEpoch (x : Sorter) : BitVec 32 :=
  if x.last = 0xFFF then x.lastEp + 1 else x.lastEp

/-- Close the next slice by force, with an empty sheaf when none is open (R119, R120). -/
def State.forceNext (s : State) (r : Nat) : State :=
  let x := s.sorter r
  let slice := (x.last.toNat + 1) % 4096
  let s := if x.opened.any (fun y => y.slice.toNat == slice) then s else s.openSheaf r slice
  let hold := (s.fe r).holdover (s.sliceNear x.nextEpoch slice).toNat
  (s.closeSheaf r slice x.nextEpoch (fun sh => { sh with forced := true, hold := hold })).bump (figIngress 1 r 1)

/-- Close by force a number of slices in ascending order (R120). -/
def State.forceN (s : State) (r : Nat) : Nat → State
  | 0 => s
  | n + 1 => (s.forceNext r).forceN r n

/-- Attach the context of a sheaf: events of slices s − 1 to s + 2, at most 16 (R122). -/
def Sorter.withContext (x : Sorter) (sh : Sheaf) : Sheaf :=
  let near := x.events.filter (fun e =>
    let d := sliceAhead sh.slice.toNat e.1.toNat
    decide (-1 ≤ d) && decide (d ≤ 2))
  { sh with ctx := (near.map (·.2)).take 16, ctxovf := decide (16 < near.length) }

/-- Pass the oldest closed sheaf of a region to the distributor with its context (R122). -/
def State.passOne (s : State) (r : Nat) : State :=
  let x := s.sorter r
  match x.closed with
  | [] => s
  | sh :: rest =>
    let s := s.setSorter r { x with
      closed := rest
      events := x.events.filter (fun e => decide (0 ≤ sliceAhead sh.slice.toNat e.1.toNat)) }
    s.modCore (fun c => { c with distrib := c.distrib ++ [x.withContext sh] })

/-- Pass the closed sheaves that need not wait: sheaf s once sheaf s + 2 is closed; at once in a run that has ended and in a
fenced region (R112, R122, R488). -/
def State.passReady (s : State) (r : Nat) : Nat → State
  | 0 => s
  | n + 1 =>
    match (s.sorter r).closed with
    | [] => s
    | sh :: _ =>
      let x := s.sorter r
      if x.fenced || s.core.stopSl.isSome || decide (2 ≤ (x.last.toNat + 4096 - sh.slice.toNat) % 4096) then
        (s.passOne r).passReady r n
      else s

def State.passAll (s : State) (r : Nat) : State := s.passReady r (s.sorter r).closed.length

/-- Close a slice by its marker (R119, R120): earlier slices first, by force; then the slice, with a loss record for the
records that COUNT says are missing. -/
def State.closeByMarker (s : State) (r slice : Nat) (epoch : BitVec 32) (count : Option Nat) (hold : Option Bool) : State :=
  let s := s.forceN r ((s.sorter r).after slice - 1).toNat
  let s := if (s.sorter r).opened.any (fun y => y.slice.toNat == slice) then s else s.openSheaf r slice
  let placed := (((s.sorter r).opened.find? (fun y => y.slice.toNat == slice)).map (·.placed)).getD 0
  let s := match count with
    | some c => if placed < c then s.appendTo r slice (sheafLoss 0xF slice (c - placed)) false else s
    | none => s
  let own := (s.fe r).holdover (s.sliceNear epoch slice).toNat
  s.closeSheaf r slice epoch (fun sh => { sh with hold := hold.getD own })

/-! ### Arriving records -/

/-- The slice that a record of kind 0x1, 0x4, 0x8 or 0x9 shows in its word 2 (R101, R104, R118). -/
def sliceOf (r : Rhr) : Nat :=
  match kindOf r with
  | 0x4 => bitsAt r.toNat 76 12
  | 0x8 => bitsAt r.toNat 77 12
  | 0x9 => bitsAt r.toNat 80 12
  | _ => bitsAt r.toNat 71 12

/-- Records of slices outside the run or before a lifted fence are discarded (R113, R488). -/
def State.inRun (s : State) (r full : Nat) : Bool :=
  s.core.running && !(s.sorter r).fenced &&
    (match (s.sorter r).fromSl with
     | some n => decide (n ≤ full)
     | none => true) &&
    (match s.core.stopSl with
     | some n => decide (full < n)
     | none => true)

/-- A record that cannot be placed by its slice goes to the newest open sheaf, or opens the slice after the last (R118). -/
def State.sortStray (s : State) (r : Nat) (rec_ : SRec) : State :=
  match (s.sorter r).opened.getLast? with
  | some sh => s.appendTo r sh.slice.toNat rec_ false
  | none =>
    let slice := ((s.sorter r).last.toNat + 1) % 4096
    (s.openSheaf r slice).appendTo r slice rec_ false

/-- A record of kind 0x1, 0x4, 0x8 or 0x9 is placed by its slice (R118, R121, R122). DESIGN CHOICE: an event that is dropped as late
or at the cap of its sheaf still joins the context of the sheaves that its slice reaches (log 152). -/
def State.sortPlaced (s : State) (r : Nat) (rec_ : SRec) : State :=
  let slice := sliceOf rec_.bits
  let x := s.sorter r
  if !s.inRun r (s.fullOf x slice) then s
  else
    let k := kindOf rec_.bits
    let s := if k = 0x8 ∨ k = 0x9 then
        s.modSorter r (fun x => { x with events := x.events ++ [(BitVec.ofNat 12 slice, rec_)] })
      else s
    if x.opened.any (fun y => y.slice.toNat == slice) then s.appendTo r slice rec_ true
    else
      let s := if decide (0 < x.after slice) && decide (16 ≤ x.opened.length) then
          match x.opened with
          | sh :: _ => s.forceN r (x.after sh.slice.toNat).toNat
          | [] => s
        else s
      if 0 < (s.sorter r).after slice then (s.openSheaf r slice).appendTo r slice rec_ true
      else (s.modSorter r (fun x => { x with carry := x.carry + 1 })).bump (figIngress 1 r 0)

/-- A slice marker whose words 2 and 1 are good (R118, R119); one of a slice before the run closes nothing and finds nothing
missing. -/
def State.sortMarker (s : State) (r : Nat) (rec_ : SRec) : State :=
  let n := rec_.bits.toNat
  let epoch := BitVec.ofNat 32 (bitsAt n 60 32)
  let slice := bitsAt n 48 12
  let count := if rec_.ok0 then some (bitsAt n 24 24) else none
  let hold := if rec_.ok0 then some (bitAt n 23) else none
  let full := s.sliceNear epoch slice
  if !s.inRun r full.toNat || decide (full < (s.sorter r).firstSl) then s
  else
    let x := s.sorter r
    if 0 < x.after slice then s.closeByMarker r slice epoch count hold
    else
      match count with
      | some c => s.modSorter r (fun x => { x with carry := x.carry + (c - Tbl.get 0 x.placed slice) })
      | none => s

/-- The sorter takes one record of a region (R118). -/
def State.sortRecord (s : State) (r : Nat) (rec_ : SRec) : State :=
  let stray := { rec_ with ok2 := false }
  let s :=
    if !s.core.running || (s.sorter r).fenced then s
    else if !rec_.ok2 then s.sortStray r rec_
    else
      match kindOf rec_.bits with
      | 0x1 | 0x4 | 0x8 | 0x9 => s.sortPlaced r rec_
      | 0x3 => if rec_.ok1 then s.sortMarker r rec_ else s.sortStray r stray
      | 0xE => s.sortStray r rec_
      | 0xF => s
      | _ => s.sortStray r stray
  s.passAll r

/-- Free pages below which the sorter takes no record (R123). -/
def pageReserve : Nat := 32

/-- The sorter empties a region's ingress FIFO while the pool has 32 free pages (R118, R123). -/
def State.drainIngress (s : State) (r : Nat) : Nat → State
  | 0 => s
  | n + 1 =>
    if s.core.usedPages.length + pageReserve ≤ sheafPages then
      match s.ingress r with
      | [] => s
      | x :: rest => ((s.setIngress r rest).sortRecord r x).drainIngress r n
    else s

/-- PAUSE at 768 records and RESUME below 256 on the links of the hubs in service (R115). -/
def State.ingressMarks (s : State) (r : Nat) : State :=
  let n := (s.ingress r).length
  let one := fun (s : State) (h : Hub) =>
    if !s.hears h then s
    else
      let l := s.link r h
      if 768 ≤ n && !l.hubPaused then
        ((s.setLink r h { l with hubPaused := true }).say r h .pause).when (h == s.red.active) (fun s => s.bump (figIngress 2 r 1))
      else if n < 256 && l.hubPaused then (s.setLink r h { l with hubPaused := false }).say r h .resume
      else s
  one (one s .a) .b

/-! ### Region fence -/

/-- A region is fenced (R112): its open sheaves close in ascending order with FENCE, the newest carries a loss record of
unknown size, all are passed on, and FENCE is raised. DESIGN CHOICE: while no run is in progress there is no sheaf, so none is opened
or closed, no loss record is added, and the event gives the epoch and slice of the clock (log 153). -/
def State.fenceRegion (s : State) (r : Fin 8) : State :=
  if (s.sorter r).fenced then s
  else if !s.core.running then
    (s.modSorter r (fun x => { x with fenced := true, fenceEp := s.clock.epoch, fenceSl := s.clock.slice })).post .fence
      [(r.val, 3), (s.clock.epoch.toNat, 32), (s.clock.slice.toNat, 12)]
  else
    let s := if (s.sorter r).opened.isEmpty then s.openSheaf r (((s.sorter r).last.toNat + 1) % 4096) else s
    let slices := (s.sorter r).opened.map (·.slice.toNat)
    let newest := slices.getLastD 0
    let s := s.appendTo r newest (sheafLoss 0xC newest 0xFFFF) false
    let s := slices.foldl (fun s sl =>
      let x := s.sorter r
      let ep : BitVec 32 := if sl < x.last.toNat then x.lastEp + 1 else x.lastEp
      let hold := (s.fe r).holdover (s.sliceNear ep sl).toNat
      s.closeSheaf r sl ep (fun sh => { sh with fence := true, hold := hold })) s
    let x := s.sorter r
    let s := (s.setSorter r { x with fenced := true, fenceEp := x.lastEp, fenceSl := x.last }).passAll r
    s.post .fence [(r.val, 3), (x.lastEp.toNat, 32), (x.last.toNat, 12)]

/-- A fence is lifted at the boundary of an epoch (R113). -/
def State.liftRegion (s : State) (r : Fin 8) (epoch : BitVec 32) : State :=
  let s := s.modSorter r (fun x =>
    { x with
      fenced := false, liftAt := none, opened := [], carry := 0, placed := [], events := []
      last := 0xFFF, lastEp := epoch - 1, fromSl := some (s.sliceNear epoch 0).toNat, firstSl := (s.sliceNear epoch 0).toNat })
  s.post .unfence [(r.val, 3)]

/-! ### Distributor, placement and stealing -/

/-- Entries of a deque (R125). -/
def dequeCap : Nat := 32

/-- A gleaner that takes sheaves: neither it nor its quarter is fenced (R138, R141). -/
def State.gleanerUp (s : State) (g : Nat) : Bool :=
  !(s.gleaner g).fenced && !bitAt s.core.quarters.toNat (g / 32)

/-- The unfenced deque of a quarter with the fewest entries and room, the lowest gleaner on a tie (R125). -/
def State.dequeIn (s : State) (q : Nat) : Option Nat :=
  ((List.range 32).map (fun i => q * 32 + i)).foldl (fun best g =>
    let n := (s.deque g).length
    if !s.gleanerUp g || dequeCap ≤ n then best
    else
      match best with
      | none => some g
      | some b => if n < (s.deque b).length then some g else some b) none

/-- The deque that takes a sheaf: quarter q, then q + 1, q + 2, q + 3 modulo 4 (R125). -/
def State.chooseDeque (s : State) (q : Nat) : Option Nat :=
  (List.range 4).findSome? (fun i => s.dequeIn ((q + i) % 4))

/-- The sheaf sequence number (R124). -/
def Sheaf.seq (sh : Sheaf) : Nat := sh.epoch.toNat * 4096 + sh.slice.toNat

/-- A sheaf at or beyond the drain point of a table write is held in the distributor (R150). -/
def HubCore.holds (c : HubCore) (sh : Sheaf) : Bool :=
  match c.holdFrom with
  | some b => reachedMod 44 sh.seq (seqOf b)
  | none => false

/-- A sheaf waits in the distributor. -/
def State.keepWaiting (s : State) (sh : Sheaf) : State := s.modCore (fun c => { c with distrib := c.distrib ++ [sh] })

/-- One waiting sheaf goes to the tail of its deque, or waits on: held, or with every deque full (R125, R150). -/
def State.placeOne (s : State) (sh : Sheaf) : State :=
  if s.core.holds sh then s.keepWaiting sh
  else
    match s.chooseDeque (sh.region / 2) with
    | none => s.keepWaiting sh
    | some g => s.setDeque g (s.deque g ++ [sh])

/-- Placement of the waiting sheaves in the order passed on (R125). -/
def State.place (s : State) : State :=
  s.core.distrib.foldl State.placeOne (s.modCore (fun c => { c with distrib := [] }))

/-- A gleaner is idle: it has executed take and waits for a sheaf (R145), with no throttling step left to pass (R403). -/
def State.gleanerIdle (s : State) (g : Nat) : Bool :=
  let x := s.gleaner g
  s.gleanerUp g && x.wait == .take && x.sheaf.isNone && x.idle == 0

/-- A gleaner takes a sheaf: cursor 0, SP clear, a new run, and take completes; past the end of the code area that is a FETCH
fault (R143, R145, R163, R164). -/
def State.giveSheaf (s : State) (g : Nat) (sh : Sheaf) : State :=
  s.modGleaner g (fun x =>
    { x with
      sheaf := some { sh with run := sh.run + 1 }, cursor := 0, watch := 0, sp := false, wait := .run
      pc := if x.pc.toNat + 4 < 0x20000 then x.pc + 4 else x.pc
      fault := if x.pc.toNat + 4 < 0x20000 then x.fault else some (6, x.pc + 4)
      out := [], prims := [], pdrop := 0, pages := 0, outLost := 0, outCap := false })

/-- An idle gleaner takes the head of its own deque (R125). -/
def State.takeOwn (s : State) (g : Nat) : State :=
  match s.deque g with
  | sh :: rest => if s.gleanerIdle g then (s.setDeque g rest).giveSheaf g sh else s
  | [] => s

/-- The victim of a steal: the class of the nearest non-empty deque; most entries, then lowest gleaner (R125). -/
def State.victim (s : State) (g : Nat) : Option (Nat × Nat) :=
  let most := fun (p : Nat → Bool) =>
    (s.core.deques.map (·.1)).foldl (fun best v =>
      if v = g ∨ !p v ∨ (s.deque v).isEmpty then best
      else
        match best with
        | none => some v
        | some b => if (s.deque b).length < (s.deque v).length then some v else some b) (none : Option Nat)
  match most (fun v => v / 8 == g / 8) with
  | some v => some (1, v)
  | none =>
    match most (fun v => v / 32 == g / 32) with
    | some v => some (2, v)
    | none => (most (fun _ => true)).map (fun v => (3, v))

/-- An idle gleaner with an empty deque steals a tail entry (R125). -/
def State.steal (s : State) (g : Nat) : State :=
  if !s.gleanerIdle g || !(s.deque g).isEmpty then s
  else
    match s.victim g with
    | none => s
    | some (c, v) =>
      match (s.deque v).getLast? with
      | none => s
      | some sh => ((s.setDeque v (s.deque v).dropLast).giveSheaf g sh).bump (figIngress 4 whole (c - 1))

/-- Gleaners of a hub (R125). -/
def gleaners : Nat := 128

/-- Put a sheaf at the head of a deque chosen from a quarter on; with all full it waits first in the distributor (R139). -/
def State.replaceSheaf (s : State) (q : Nat) (sh : Sheaf) : State :=
  match s.chooseDeque q with
  | some g => s.setDeque g (sh :: s.deque g)
  | none => s.modCore (fun c => { c with distrib := sh :: c.distrib })

/-! ### The page image of a sheaf (R123, R124) -/

/-- The sheaf header (R124). -/
def Sheaf.header (sh : Sheaf) : BitVec 256 :=
  BitVec.ofNat 256 (sh.region % 8 * 2 ^ 253 + sh.epoch.toNat * 2 ^ 221 + sh.slice.toNat * 2 ^ 209 + sh.recs.length % 2 ^ 16 * 2 ^ 193 +
    min sh.nlost 0xFFFF * 2 ^ 177 + sh.ctx.length % 32 * 2 ^ 172 + sh.hold.toNat * 2 ^ 171 + sh.fence.toNat * 2 ^ 170 +
    sh.ctxovf.toNat * 2 ^ 169 + sh.cap.toNat * 2 ^ 168 + sh.forced.toNat * 2 ^ 167 + sh.pages.headD 0xFFFF % 2 ^ 16 * 2 ^ 151)

/-- A deque entry of a sheaf (R125). -/
def Sheaf.entry (sh : Sheaf) : BitVec 32 :=
  BitVec.ofNat 32 (sh.region % 8 * 2 ^ 29 + sh.slice.toNat * 2 ^ 17 + sh.pages.headD 0xFFFF % 2 ^ 16)

/-- Record slots of 12 bytes, the empty ones zero (R123). -/
def slotBytes (slots : Nat) (rs : List SRec) : List Byte :=
  (List.range slots).flatMap (fun i => leBytes 12 (match rs[i]? with
    | some r => r.bits.toNat
    | none => 0))

/-- The page link after a page: the number of the next page of the sheaf, 0xFFFF after the last (R123). -/
def Sheaf.link (sh : Sheaf) (i : Nat) : List Byte := leBytes 8 (sh.pages[i + 1]?.getD 0xFFFF)

/-- The 4 KiB of a sheaf's page: the first holds the header, 16 context slots, 322 record slots and the link; a later one the link,
340 record slots and 8 reserved bytes (R123). -/
def Sheaf.page (sh : Sheaf) (i : Nat) : List Byte :=
  if i = 0 then leBytes 32 sh.header.toNat ++ slotBytes 16 sh.ctx ++ slotBytes 322 sh.recs ++ sh.link 0
  else sh.link i ++ slotBytes 340 (sh.recs.drop (322 + 340 * (i - 1))) ++ leBytes 8 0

end Sys2Proof.Machine
end

