-- ==== Sys2Proof/Machine/Operands.lean ====
section
/-!
DEFINITION. The operand forms: fields of a Hutraeno instruction word (R152, R153, R487), the registers and wisps of a gleaner
with their poison tags (R143, R168), and the fields of a command word (R186).
-/

namespace Sys2Proof.Machine

/-! ### Instruction words (R152) -/

def opField (w : Nat) : Nat := bitsAt w 26 6
def rdField (w : Nat) : Nat := bitsAt w 21 5
def rs1Field (w : Nat) : Nat := bitsAt w 16 5
def rs2Field (w : Nat) : Nat := bitsAt w 11 5
def imm16 (w : Nat) : Nat := bitsAt w 0 16
def fldPos (w : Nat) : Nat := bitsAt w 9 7
def fldLen (w : Nat) : Nat := bitsAt w 3 6 + 1
def tblT (w : Nat) : Nat := bitsAt w 12 4
def tblQ (w : Nat) : Nat := bitsAt w 11 1
def tblOff (w : Nat) : Nat := bitsAt w 8 3
def crvT (w : Nat) : Nat := bitsAt w 7 4
def crvSh (w : Nat) : Nat := bitsAt w 3 4
def memSp (w : Nat) : Nat := bitsAt w 14 2
def memSize (w : Nat) : Nat := bitsAt w 12 2
def memOff (w : Nat) : Int := signed 12 (bitsAt w 0 12)
def off16 (w : Nat) : Int := signed 16 (bitsAt w 0 16)
def off21 (w : Nat) : Int := signed 21 (bitsAt w 0 21)
/-- The branch format has rs1 where others have rd, and rs2 where others have rs1. -/
def braRs1 (w : Nat) : Nat := bitsAt w 21 5
def braRs2 (w : Nat) : Nat := bitsAt w 16 5

/-- A field that names a wisp is legal with zero in its upper 3 bits (R153). -/
def wispOk (f : Nat) : Bool := decide (f < 4)

/-- Sign extension of imm16 to 64 bits. -/
def sextImm (w : Nat) : BitVec 64 := BitVec.ofInt 64 (signed 16 (imm16 w))

/-- Zero extension of imm16. -/
def zextImm (w : Nat) : BitVec 64 := BitVec.ofNat 64 (imm16 w)

/-! ### Registers -/

/-- A general register; g0 reads as zero (R143). -/
def Gleaner.g (x : Gleaner) (i : Nat) : BitVec 64 := if i = 0 then 0 else Tbl.get 0 x.regs i

/-- P bit of a general register; g0's is always 0 (R143). -/
def Gleaner.p (x : Gleaner) (i : Nat) : Bool := i != 0 && x.pg.getLsbD i

/-- Write a general register and its P bit; writes to g0 are discarded (R143). -/
def Gleaner.setG (x : Gleaner) (i : Nat) (v : BitVec 64) (p : Bool) : Gleaner :=
  if i = 0 then x
  else
    { x with
      regs := Tbl.set 0 x.regs i v
      pg := if p then x.pg ||| BitVec.ofNat 32 (2 ^ i) else x.pg &&& ~~~ BitVec.ofNat 32 (2 ^ i) }

def Gleaner.w (x : Gleaner) (i : Nat) : Rec128 := Tbl.get 0 x.wisps i

/-- P bit of a wisp. -/
def Gleaner.wp (x : Gleaner) (i : Nat) : Bool := x.pw.getLsbD i

def Gleaner.setW (x : Gleaner) (i : Nat) (v : Rec128) (p : Bool) : Gleaner :=
  { x with
    wisps := Tbl.set 0 x.wisps i v
    pw := if p then x.pw ||| BitVec.ofNat 4 (2 ^ i) else x.pw &&& ~~~ BitVec.ofNat 4 (2 ^ i) }

/-- Set the sheaf poison latch when a condition holds (R168). -/
def Gleaner.latch (x : Gleaner) (b : Bool) : Gleaner := { x with sp := x.sp || b }

/-- Continue at a byte address; outside the code area or misaligned it is a FETCH fault (R143, R169). -/
def Gleaner.goto (x : Gleaner) (a : Int) : Gleaner :=
  if 0 ≤ a ∧ a < 0x20000 ∧ a % 4 = 0 then { x with pc := BitVec.ofInt 17 a, wait := .run }
  else { x with fault := some (6, BitVec.ofInt 17 a), wait := .run }

/-- The next instruction. -/
def Gleaner.next (x : Gleaner) : Gleaner := x.goto (x.pc.toNat + 4)

/-- A fault: the instruction has no effect and the gleaner is fenced at the next step boundary (R169). -/
def Gleaner.trap (x : Gleaner) (cause : Nat) : Gleaner := { x with fault := some (cause, x.pc) }

/-! ### Command words (R186) -/

def cmdClass (w : Nat) : Nat := bitsAt w 0 8
def cmdSub (w : Nat) : Nat := bitsAt w 8 8
def cmdTag (w : Nat) : Nat := bitsAt w 16 16
def cmdArg0 (w : Nat) : Nat := bitsAt w 32 32
def cmdArg1 (w : Nat) : Nat := bitsAt w 64 64

end Sys2Proof.Machine
end

