-- ==== Sys2Proof/Machine/Gleaners.lean ====
section
/-!
DEFINITION. The Hutraeno gleaner instructions (R143 to R169). A command names the gleaner; the instruction word is fetched at
its PC.
-/

namespace Sys2Proof.Machine

/-! ### Issue -/

/-- The instruction word at an address of the code area (R146). -/
def State.codeWord (s : State) (pc : BitVec 17) : Nat := numAt (s.table codeTable) pc.toNat 4

/-- A gleaner issues (R144, R169, R447): a program is in force, the node is ACTIVE, the gleaner is neither fenced nor stopped by
a fault, and it waits for nothing. -/
def State.issues (s : State) (g : Nat) : Bool :=
  let x := s.gleaner g
  s.awake && s.loaded && s.gleanerUp g && x.fault.isNone && x.wait == .run

/-- Issue the instruction at PC when its opcode is `op`: an illegal field stops the gleaner (R152, R169), else `f` gives the
effect on the node. -/
def State.issue (s : State) (g : Nat) (op : Nat) (legal : Nat → Bool) (f : Nat → Gleaner → State → State) : State :=
  let x := s.gleaner g
  let w := s.codeWord x.pc
  if s.issues g && opField w == op then
    if legal w then f w x s else s.setGleaner g (x.trap 1)
  else s

/-- The low bits of a word are zero. -/
def lowZero (n w : Nat) : Bool := bitsAt w 0 n == 0

/-- rd := f rs1 rs2, REG format (R152, R156, R168). -/
def State.regOp (s : State) (g op : Nat) (f : BitVec 64 → BitVec 64 → BitVec 64) : State :=
  s.issue g op (lowZero 11) (fun w x s =>
    s.setGleaner g
      (x.setG (rdField w) (f (x.g (rs1Field w)) (x.g (rs2Field w))) (x.p (rs1Field w) || x.p (rs2Field w))).next)

/-- rd := f rs1 imm, IMM format. -/
def State.immOp (s : State) (g op : Nat) (f : BitVec 64 → Nat → BitVec 64) : State :=
  s.issue g op (fun _ => true) (fun w x s =>
    s.setGleaner g (x.setG (rdField w) (f (x.g (rs1Field w)) w) (x.p (rs1Field w))).next)

/-- A shift by imm[5:0], with imm[15:6] zero. -/
def State.shiftImm (s : State) (g op : Nat) (f : BitVec 64 → Nat → BitVec 64) : State :=
  s.issue g op (fun w => bitsAt w 6 10 == 0) (fun w x s =>
    s.setGleaner g (x.setG (rdField w) (f (x.g (rs1Field w)) (bitsAt w 0 6)) (x.p (rs1Field w))).next)

/-- A branch (R156, R168): decided on the values as read; a poisoned operand sets SP. -/
def State.branch (s : State) (g op : Nat) (c : BitVec 64 → BitVec 64 → Bool) : State :=
  s.issue g op (fun _ => true) (fun w x s =>
    let y := x.latch (x.p (braRs1 w) || x.p (braRs2 w))
    s.setGleaner g
      (if c (x.g (braRs1 w)) (x.g (braRs2 w)) then y.goto (x.pc.toNat + 4 * off16 w) else y.next))

/-! ### Fields -/

/-- Bounds of a field instruction: pos + len at most `n`, low bits zero (R156). -/
def fldOk (n w : Nat) : Bool := lowZero 3 w && decide (fldPos w + fldLen w ≤ n)

/-- Replace bits [pos + len − 1 : pos] of x by the low bits of v. -/
def putField (x v pos len : Nat) : Nat :=
  x - bitsAt x pos len * 2 ^ pos + v % 2 ^ len * 2 ^ pos

def State.fexOp (s : State) (g op : Nat) (sx : Bool) : State :=
  s.issue g op (fldOk 64) (fun w x s =>
    let v := bitsAt (x.g (rs1Field w)).toNat (fldPos w) (fldLen w)
    let r := if sx then BitVec.ofInt 64 (signed (fldLen w) v) else BitVec.ofNat 64 v
    s.setGleaner g (x.setG (rdField w) r (x.p (rs1Field w))).next)

def State.finsOp (s : State) (g : Nat) : State :=
  s.issue g 0x1F (fldOk 64) (fun w x s =>
    let v := putField (x.g (rdField w)).toNat (x.g (rs1Field w)).toNat (fldPos w) (fldLen w)
    s.setGleaner g (x.setG (rdField w) (BitVec.ofNat 64 v) (x.p (rs1Field w) || x.p (rdField w))).next)

def State.wfexOp (s : State) (g : Nat) : State :=
  s.issue g 0x20 (fun w => fldOk 128 w && wispOk (rs1Field w)) (fun w x s =>
    let v := bitsAt (x.w (rs1Field w)).toNat (fldPos w) (fldLen w)
    s.setGleaner g (x.setG (rdField w) (BitVec.ofNat 64 v) (x.wp (rs1Field w))).next)

def State.wfinsOp (s : State) (g : Nat) : State :=
  s.issue g 0x21 (fun w => fldOk 128 w && wispOk (rdField w)) (fun w x s =>
    let v := putField (x.w (rdField w)).toNat (x.g (rs1Field w)).toNat (fldPos w) (fldLen w)
    s.setGleaner g (x.setW (rdField w) (BitVec.ofNat 128 v) (x.p (rs1Field w) || x.wp (rdField w))).next)

def State.wmovOp (s : State) (g : Nat) : State :=
  s.issue g 0x22 (fun w => lowZero 16 w && wispOk (rdField w) && wispOk (rs1Field w)) (fun w x s =>
    s.setGleaner g (x.setW (rdField w) (x.w (rs1Field w)) (x.wp (rs1Field w))).next)

/-- lhi: bits [16k + 15 : 16k] of rd are replaced; a poisoned destination stays poisoned (R156, R168). -/
def State.lhiOp (s : State) (g : Nat) : State :=
  s.issue g 0x18 (fun w => bitsAt w 18 3 == 0) (fun w x s =>
    let v := putField (x.g (rdField w)).toNat (imm16 w) (16 * bitsAt w 16 2) 16
    s.setGleaner g (x.setG (rdField w) (BitVec.ofNat 64 v) (x.p (rdField w))).next)

def State.ldiOp (s : State) (g : Nat) : State :=
  s.issue g 0x17 (fun w => rs1Field w == 0) (fun w x s =>
    s.setGleaner g (x.setG (rdField w) (sextImm w) false).next)

def State.jalOp (s : State) (g : Nat) : State :=
  s.issue g 0x1B (fun _ => true) (fun w x s =>
    s.setGleaner g
      ((x.setG (rdField w) (BitVec.ofNat 64 (x.pc.toNat + 4)) false).goto (x.pc.toNat + 4 * off21 w)))

def State.jrOp (s : State) (g : Nat) : State :=
  s.issue g 0x1C (fun w => lowZero 16 w) (fun w x s =>
    s.setGleaner g
      (((x.setG (rdField w) (BitVec.ofNat 64 (x.pc.toNat + 4)) false).latch (x.p (rs1Field w))).goto
        ((x.g (rs1Field w)).toNat : Int)))

/-! ### Tables (R149, R157, R158) -/

/-- A table descriptor: table ID, entry size, entry count, signed. -/
structure TableDesc where
  id     : Nat
  size   : Nat
  count  : Nat
  signed : Bool
  deriving DecidableEq, Repr

/-- Entry size of an ATTR code (R171). -/
def attrSize (a : Nat) : Nat :=
  match bitsAt a 0 3 with
  | 1 => 4
  | 2 => 8
  | _ => 16

/-- The descriptor of table T (R149). -/
def State.desc (s : State) (t : Nat) : Option TableDesc :=
  match t with
  | 0 => some ⟨idSkew, 4, 4096, true⟩
  | 1 => some ⟨idCurve, 16, 32768, false⟩
  | 2 => some ⟨idThreshold, 4, 4096, false⟩
  | _ =>
    match s.node.prog with
    | none => none
    | some p =>
      let n := Tbl.get 0 p.sizes (0x80 + t)
      let a := (Tbl.get 0 p.attrs (0x80 + t)).toNat
      if n = 0 then none else some ⟨0x80 + t, attrSize a, n / attrSize a, bitAt a 3⟩

/-- An entry of a table as a number. -/
def State.entry (s : State) (d : TableDesc) (i : Nat) : Nat := numAt (s.table d.id) (i * d.size) d.size

/-- The stall of a table read whose word fails parity after replay (R137). -/
def Gleaner.stall (x : Gleaner) : Gleaner := { x with wait := .reload }

/-- lut: `pf` the read's parity failure, which stalls the gleaner; a free poisoned value completes a read whose reload failed
(R137, R157, R168). -/
def State.lutOp (s : State) (g : Nat) (pf : Bool) : State :=
  s.issue g 0x23 (lowZero 8) (fun w x s =>
    if x.p (rs1Field w) then s.setGleaner g (((x.setG (rdField w) 0 true).latch true).next)
    else
      let i := (x.g (rs1Field w) + BitVec.ofNat 64 (tblOff w)).toNat
      match s.desc (tblT w) with
      | none => s.setGleaner g (x.trap 5)
      | some d =>
        if d.count ≤ i ∨ (tblQ w = 1 ∧ d.size ≠ 16) then s.setGleaner g (x.trap 5)
        else if pf then s.setGleaner g x.stall
        else
          let e := s.entry d i
          let v : BitVec 64 :=
            if d.size = 16 then BitVec.ofNat 64 (e >>> (64 * tblQ w))
            else if d.signed then BitVec.ofInt 64 (signed (8 * d.size) e)
            else BitVec.ofNat 64 e
          s.setGleaner g (x.setG (rdField w) v false).next)

def State.wlutOp (s : State) (g : Nat) (pf : Bool) : State :=
  s.issue g 0x24 (fun w => lowZero 8 w && tblQ w == 0 && wispOk (rdField w)) (fun w x s =>
    if x.p (rs1Field w) then s.setGleaner g (((x.setW (rdField w) 0 true).latch true).next)
    else
      let i := (x.g (rs1Field w) + BitVec.ofNat 64 (tblOff w)).toNat
      match s.desc (tblT w) with
      | none => s.setGleaner g (x.trap 5)
      | some d =>
        if d.count ≤ i then s.setGleaner g (x.trap 5)
        else if pf then s.setGleaner g x.stall
        else s.setGleaner g (x.setW (rdField w) (BitVec.ofNat 128 (s.entry d i)) false).next)

/-- A knot: X unsigned in [31:0] and Y signed in [63:32] of word 0 (R151), open for an entry of four bytes. -/
def State.knot (s : State) (d : TableDesc) (i : Nat) : Int × Int :=
  let e := s.entry d i
  ((bitsAt e 0 32 : Nat), if d.size = 4 then (Config.narrowKnot e).toInt else signed 32 (bitsAt e 32 32))

/-- Interpolation of R158 over a list of knots: the lowest k whose knots enclose x. -/
def curveBetween (x : Int) : List (Int × Int) → Option Int
  | (x0, y0) :: (x1, y1) :: l =>
    if x0 ≤ x ∧ x < x1 then some (y0 + roundDiv ((y1 - y0) * (x - x0)) (x1 - x0).toNat)
    else curveBetween x ((x1, y1) :: l)
  | _ => none

/-- The value of R158 before the shift. -/
def curveAt (x : Int) (ks : List (Int × Int)) : Int :=
  let first := ks.headD (0, 0)
  let last := ks.getLastD (0, 0)
  if x ≤ first.1 then first.2
  else if last.1 ≤ x then last.2
  else (curveBetween x ks).getD first.2

/-- The rounding shift of R158. -/
def curveShift (y : Int) (sh : Nat) : Int :=
  if sh = 0 then y else (y + 2 ^ (sh - 1)) / 2 ^ sh

def State.curveOp (s : State) (g : Nat) (pf : Bool) : State :=
  s.issue g 0x25 (lowZero 3) (fun w x s =>
    if x.p (rs2Field w) then s.setGleaner g (((x.setG (rdField w) 0 true).latch true).next)
    else
      let i := (x.g (rs2Field w)).toNat
      match s.desc (crvT w) with
      | none => s.setGleaner g (x.trap 5)
      | some d =>
        if d.count ≤ i + 5 then s.setGleaner g (x.trap 5)
        else if pf then s.setGleaner g x.stall
        else
          let y := curveAt (x.g (rs1Field w)).toInt ((List.range 6).map (fun k => s.knot d (i + k)))
          s.setGleaner g (x.setG (rdField w) (BitVec.ofInt 64 (curveShift y (crvSh w))) (x.p (rs1Field w))).next)

/-! ### Arithmetic of hits and times (R159, R160) -/

/-- gain (R159). -/
def gainOp (a b : BitVec 64) : BitVec 64 :=
  let v := (a.toInt * 16 - (bitsAt b.toNat 0 16 : Nat)) * (bitsAt b.toNat 16 32 : Nat) + 2 ^ 27
  BitVec.ofInt 64 (clampInt 0 65535 (v / 2 ^ 28))

/-- ctot (R159). -/
def ctotOp (a b : BitVec 64) : BitVec 64 :=
  if a = 0 then 0
  else if 16383 ≤ a.toInt then 16383
  else BitVec.ofInt 64 (clampInt 1 16382 (a.toInt - signed 15 (bitsAt b.toNat 48 15)))

/-- Epoch adjust of a time value; 0b10 is out of range (R160). -/
def epochAdjust (v : BitVec 64) : Option Int :=
  match bitsAt v.toNat 33 2 with
  | 0 => some 0
  | 1 => some 1
  | 3 => some (-1)
  | _ => none

/-- Fine ticks of a time value (R160). -/
def fineTicks (v : BitVec 64) : Int := (bitsAt v.toNat 0 33 : Nat)

/-- tadd (R160): the value and whether it is out of range. -/
def taddOp (a b : BitVec 64) (neg : Bool) : BitVec 64 × Bool :=
  match epochAdjust a with
  | none => (0, true)
  | some e =>
    let t := e * 2 ^ 33 + fineTicks a + (if neg then -b.toInt else b.toInt)
    let q := t / 2 ^ 33
    let low := t - q * 2 ^ 33
    if q = 0 then (BitVec.ofInt 64 low, false)
    else if q = 1 then (BitVec.ofInt 64 (low + 2 ^ 33), false)
    else if q = -1 then (BitVec.ofInt 64 (low + 3 * 2 ^ 33), false)
    else (BitVec.ofInt 64 (low + 2 * 2 ^ 33), true)

/-- tsub (R160). -/
def tsubOp (a b : BitVec 64) : BitVec 64 × Bool :=
  match epochAdjust a, epochAdjust b with
  | some e, some f => (BitVec.ofInt 64 ((e - f) * 2 ^ 33 + fineTicks a - fineTicks b), false)
  | _, _ => (0, true)

def State.taddInstr (s : State) (g : Nat) : State :=
  s.issue g 0x26 (lowZero 10) (fun w x s =>
    let r := taddOp (x.g (rs1Field w)) (x.g (rs2Field w)) (bitAt w 10)
    s.setGleaner g (x.setG (rdField w) r.1 (r.2 || x.p (rs1Field w) || x.p (rs2Field w))).next)

def State.tsubInstr (s : State) (g : Nat) : State :=
  s.issue g 0x27 (lowZero 11) (fun w x s =>
    let r := tsubOp (x.g (rs1Field w)) (x.g (rs2Field w))
    s.setGleaner g (x.setG (rdField w) r.1 (r.2 || x.p (rs1Field w) || x.p (rs2Field w))).next)

/-! ### Records (R161, R162) -/

/-- Kinds that R103 lists as produced. -/
def producedKind (k : Nat) : Bool := countedKind k || k == 0x3 || k == 0xE || k == 0xF

/-- A record as rnext and rctx deliver it (R161): KIND, the wisp, and its P bit; `bad` has bit k when word k of the record's slot
fails parity after its replays. A filler of kind 0xE is a poisoned record (R29). -/
def deliver (region : Nat) (r : SRec) (bad : BitVec 3) : Nat × Rec128 × Bool :=
  let n := r.bits.toNat
  let k := kindOf r.bits
  let lchan := bitsAt n 83 9
  let chan := if lchan = 0x1FF then 0xFFF else region * 512 + lchan
  if bad != 0 || !r.ok2 || !r.ok1 || !r.ok0 then
    let c := if !r.ok2 || bad.getLsbD 2 || !producedKind k then 0xFFF else region * 512 + lchan
    (0xE, BitVec.ofNat 128 (0xE * 2 ^ 124 + c * 2 ^ 112 + n), true)
  else
    let c := if k = 0x1 ∨ k = 0xE then chan else 0
    (k, BitVec.ofNat 128 (k * 2 ^ 124 + c * 2 ^ 112 + n), k == 0xE)

def State.rnextOp (s : State) (g : Nat) (bad : BitVec 3) : State :=
  s.issue g 0x28 (fun w => lowZero 16 w && wispOk (rs1Field w)) (fun w x s =>
    match x.sheaf with
    | none => s.setGleaner g (x.trap 2)
    | some sh =>
      match sh.recs[x.cursor]? with
      | none => s.setGleaner g (((x.setW (rs1Field w) 0 false).setG (rdField w) 0 false).next)
      | some r =>
        let d := deliver sh.region r bad
        let y := (x.setW (rs1Field w) d.2.1 d.2.2).setG (rdField w) (BitVec.ofNat 64 d.1) false
        s.setGleaner g { y with cursor := x.cursor + 1 }.next)

def State.rctxOp (s : State) (g : Nat) (bad : BitVec 3) : State :=
  s.issue g 0x29 (fun w => lowZero 11 w && wispOk (rs1Field w)) (fun w x s =>
    match x.sheaf with
    | none => s.setGleaner g (x.trap 2)
    | some sh =>
      if x.p (rs2Field w) then
        s.setGleaner g ((((x.setW (rs1Field w) 0 true).setG (rdField w) 0 false).latch true).next)
      else
        match sh.ctx[(x.g (rs2Field w)).toNat]? with
        | none => s.setGleaner g (((x.setW (rs1Field w) 0 false).setG (rdField w) 0 false).next)
        | some r =>
          let d := deliver sh.region r bad
          s.setGleaner g ((x.setW (rs1Field w) d.2.1 d.2.2).setG (rdField w) (BitVec.ofNat 64 d.1) false).next)

/-- Output records of a page, and of a sheaf (R128). -/
def pageRecords : Nat := 256
def outCap : Nat := 8192

/-- A sheaf may take an output page (R128). -/
def State.mayTakePage (s : State) (sh : Sheaf) : Bool :=
  let free := outPagesTotal - s.core.usedOut
  decide (256 < free) || (decide (0 < free) && sh.seq == seqOf s.core.nextSl)

/-- remit (R128, R162): the record, with POISON set when the wisp or the sheaf is poisoned; it waits for a page. -/
def State.remitOp (s : State) (g : Nat) : State :=
  s.issue g 0x2A (fun w => rdField w == 0 && lowZero 16 w && wispOk (rs1Field w)) (fun w x s =>
    match x.sheaf with
    | none => s.setGleaner g (x.trap 2)
    | some sh =>
      if outCap ≤ x.out.length then
        (s.when (!x.outCap) (fun s => s.bump (figIngress 1 sh.region 2))).setGleaner g { x with outLost := x.outLost + 1, outCap := true }.next
      else
        let v := x.w (rs1Field w)
        let r : Rec128 := if x.wp (rs1Field w) || x.sp then v ||| BitVec.ofNat 128 (2 ^ 39) else v
        if x.out.length = x.pages * pageRecords then
          if s.mayTakePage sh then
            (s.modCore (fun c =>
              { c with usedOut := c.usedOut + 1, lowOut := min c.lowOut (outPagesTotal - c.usedOut - 1) })).setGleaner g
              { x with out := x.out ++ [r], pages := x.pages + 1 }.next
          else s
        else s.setGleaner g { x with out := x.out ++ [r] }.next)

def State.rdropOp (s : State) (g : Nat) : State :=
  s.issue g 0x2B (fun w => rdField w == 0 && lowZero 16 w) (fun w x s =>
    match x.sheaf with
    | none => s.setGleaner g (x.trap 2)
    | some sh =>
      if x.p (rs1Field w) then s.setGleaner g (x.latch true).next
      else s.setGleaner g { x with cursor := x.cursor + min (x.g (rs1Field w)).toNat (sh.recs.length - x.cursor) }.next)

/-- rflag: set or clear bits of wd[46:31] (R156). -/
def State.rflagOp (s : State) (g : Nat) : State :=
  s.issue g 0x2C (fun w => bitsAt w 17 4 == 0 && wispOk (rdField w)) (fun w x s =>
    let v := x.w (rdField w)
    let m : Rec128 := BitVec.ofNat 128 (imm16 w * 2 ^ 31)
    s.setGleaner g (x.setW (rdField w) (if bitAt w 16 then v &&& ~~~ m else v ||| m) (x.wp (rdField w))).next)

def State.pemitOp (s : State) (g : Nat) : State :=
  s.issue g 0x2D (fun w => rdField w == 0 && lowZero 16 w) (fun w x s =>
    match x.sheaf with
    | none => s.setGleaner g (x.trap 2)
    | some _ =>
      s.setGleaner g
        (if x.p (rs1Field w) || x.sp then { x with pdrop := x.pdrop + 1 }
         else { x with prims := x.prims ++ [x.g (rs1Field w)] }).next)

/-- ptest reads a tag, not the value it belongs to: its result is not poisoned (R156, R168). -/
def State.ptestOp (s : State) (g : Nat) : State :=
  s.issue g 0x2E
    (fun w => bitsAt w 2 14 == 0 &&
      (match bitsAt w 0 2 with
       | 0 => true
       | 1 => wispOk (rs1Field w)
       | 2 => rs1Field w == 0
       | _ => false))
    (fun w x s =>
      let b := match bitsAt w 0 2 with
        | 0 => x.p (rs1Field w)
        | 1 => x.wp (rs1Field w)
        | _ => x.sp
      s.setGleaner g (x.setG (rdField w) (if b then 1 else 0) false).next)

/-! ### take, done and sheaf state (R163, R164) -/

def State.takeOp (s : State) (g : Nat) : State :=
  s.issue g 0x30 (lowZero 26) (fun _ x s =>
    match x.sheaf with
    | some _ => s.setGleaner g (x.trap 2)
    | none => s.setGleaner g { x with wait := .take })

/-- Idle steps after done before the next take, by throttle level (R403). -/
def idleSteps (level : Nat) : Nat := if level = 0 then 0 else 2 ^ (level + 3)

/-- done (R128, R163): the output passes to the collector and the gleaner holds no sheaf. -/
def State.doneOp (s : State) (g : Nat) : State :=
  s.issue g 0x31 (lowZero 26) (fun _ x s =>
    match x.sheaf with
    | none => s.setGleaner g (x.trap 2)
    | some sh =>
      let d : DoneSheaf :=
        { region := sh.region, seq := sh.seq, recs := x.out, prims := x.prims, pdrop := x.pdrop, nlost := sh.nlost + x.outLost
          hold := sh.hold, forced := sh.forced || sh.cap || x.outCap, pages := sh.pages, outPages := x.pages }
      (s.modCore (fun c => { c with done := c.done ++ [d] })).setGleaner g
        { x with
          sheaf := none, cursor := 0, watch := 0, out := [], prims := [], pdrop := 0, pages := 0, outLost := 0
          outCap := false, idle := idleSteps s.thermal.level }.next)

/-- The value of a selector of sget (R164). -/
def Gleaner.sget (x : Gleaner) (g sel : Nat) : Nat :=
  if sel = 9 then g
  else
    match x.sheaf with
    | none => 0
    | some sh =>
      match sel with
      | 0 => sh.region
      | 1 => sh.epoch.toNat
      | 2 => sh.slice.toNat
      | 3 => sh.recs.length
      | 4 => min 0xFFFF (sh.nlost + x.outLost)
      | 5 => sh.ctx.length
      | 6 =>
        (if sh.hold then 16 else 0) + (if sh.fence then 8 else 0) + (if sh.ctxovf then 4 else 0) +
          (if sh.cap || x.outCap then 2 else 0) + (if sh.forced then 1 else 0)
      | 7 => sh.seq
      | 8 => sh.recs.length - x.cursor
      | _ => sh.run

def State.sgetOp (s : State) (g : Nat) : State :=
  s.issue g 0x32 (fun w => rs1Field w == 0 && decide (imm16 w ≤ 10)) (fun w x s =>
    s.setGleaner g (x.setG (rdField w) (BitVec.ofNat 64 (x.sget g (imm16 w))) false).next)

/-! ### Memory (R146 to R148) -/

/-- Where an access goes: a byte of a gleaner memory, a table in force, or the stored tally means. -/
inductive Place where
  | mem (a : Nat)
  | tab (id off : Nat)
  | mean (unit chan byte : Nat)
  deriving DecidableEq, Repr

/-- Offset of gleaner table T in program data, tables 2 to 15 in ascending order at 16-byte boundaries (R175). -/
def progTables (p : Program) : List (Nat × Nat × Nat) :=
  ((List.range 13).map (· + 3)).foldl
    (fun l t =>
      let n := Tbl.get 0 p.sizes (0x80 + t)
      let off := match l.getLast? with
        | some (_, o, m) => (o + m + 15) / 16 * 16
        | none => 0
      if n = 0 then l else l ++ [(0x80 + t, off, n)])
    [(idThreshold, 0, 16384)]

/-- Program data of hub shared memory (R146). -/
def progData : Nat := 0x6A4000

/-- The loaded table that holds a byte of program data (R146, R175). -/
def State.progTableAt (s : State) (a : Nat) : Option (Nat × Nat) :=
  match s.node.prog with
  | none => none
  | some p =>
    ((progTables p).find? (fun t => decide (progData + t.2.1 ≤ a) && decide (a < progData + t.2.1 + t.2.2))).map
      (fun t => (t.1, a - progData - t.2.1))

/-- The range of R146 that holds an address: its first and last byte, whether it can be read and written. -/
def memRange (sp a : Nat) : Option (Nat × Nat × Bool × Bool) :=
  if sp = 0 then if a ≤ 0xFFFF then some (0, 0xFFFF, true, true) else none
  else if sp = 1 then
    if a ≤ 0x1FFFF then some (0, 0x1FFFF, true, false)
    else if a ≤ 0x7FFFF then some (0x20000, 0x7FFFF, true, true)
    else none
  else if sp = 2 then
    if a ≤ 0x5FFFFF then some (0, 0x5FFFFF, false, false)
    else if a ≤ 0x67FFFF then some (0x600000, 0x67FFFF, true, false)
    else if a ≤ 0x683FFF then some (0x680000, 0x683FFF, true, false)
    else if a ≤ 0x6A3FFF then some (0x684000, 0x6A3FFF, true, false)
    else if a ≤ 0x7FFFFF then some (0x6A4000, 0x7FFFFF, true, true)
    else none
  else none

/-- The place of a byte of a gleaner's space (R146). -/
def State.place1 (s : State) (g sp a : Nat) : Place :=
  if sp = 0 then .mem (g * 0x10000 + a)
  else if sp = 1 then
    if a ≤ 0x1FFFF then .tab codeTable a else .mem (0x1000000 + g / 8 * 0x80000 + a)
  else if a ≤ 0x67FFFF then .tab idCurve (a - 0x600000)
  else if a ≤ 0x683FFF then .tab idSkew (a - 0x680000)
  else if a ≤ 0x6A3FFF then .mean ((a - 0x684000) / 16384) ((a - 0x684000) % 16384 / 4) (a % 4)
  else
    match s.progTableAt a with
    | some (id, off) => .tab id off
    | none => .mem (0x2000000 + a)

/-- A stored tally mean, 0x8000_0000 when none is stored (R146). -/
def State.meanWord (s : State) (u c : Nat) : Nat :=
  let t := s.tally u
  if t.baseRef.isSome && t.base.any (fun p => p.1 == c) then unsigned 32 (Tbl.get 0 t.base c) else 0x80000000

def State.readPlace (s : State) : Place → Byte
  | .mem a => byteAt s.gmem.bytes a
  | .tab id off => byteAt (s.table id) off
  | .mean u c b => BitVec.ofNat 8 (s.meanWord u c >>> (8 * b))

/-- The poison tag of a byte's word (R168). -/
def State.tagPlace (s : State) : Place → Bool
  | .mem a => Tbl.get false s.gmem.tags (a / 4)
  | _ => false

/-- The address of a memory instruction: base + sext(off12), 64 bits (R156). -/
def memAddr (x : Gleaner) (w : Nat) : Nat := (x.g (rs1Field w) + BitVec.ofInt 64 (memOff w)).toNat

/-- Fault cause of an access of n bytes, if any: ADDRESS, or WRITE for a store (R147, R169). -/
def State.accessFault (s : State) (sp a n : Nat) (store : Bool) : Option Nat :=
  match memRange sp a with
  | none => some 3
  | some (_, last, rd, wr) =>
    if a % n ≠ 0 ∨ last < a + n - 1 then some 3
    else if store then
      if !wr then some 4
      else if sp = 2 ∧ (List.range n).any (fun i => (s.progTableAt (a + i)).isSome) then some 4
      else none
    else if rd then none else some 3

/-- Read n bytes with the poison of their words. -/
def State.load (s : State) (g sp a n : Nat) : Nat × Bool :=
  let ps := (List.range n).map (fun i => s.place1 g sp (a + i))
  (leNat (ps.map s.readPlace), ps.any s.tagPlace)

/-- Write one byte and the poison tag of its word. -/
def State.storeByte (s : State) (p : Place) (b : Byte) (poison : Bool) : State :=
  match p with
  | .mem a =>
    { s with gmem := { s.gmem with
        bytes := putByte s.gmem.bytes a b, tags := Tbl.set false s.gmem.tags (a / 4) poison } }
  | _ => s

/-- Write bytes at rising addresses with one poison tag. -/
def State.storeBytes (s : State) (g sp a : Nat) (poison : Bool) : List Byte → State
  | [] => s
  | b :: bs => (s.storeByte (s.place1 g sp a) b poison).storeBytes g sp (a + 1) poison bs

/-- Whether a place lies in a loaded table, whose words are reloaded (R137, R168). -/
def Place.reloads : Place → Bool
  | .tab id _ => id != codeTable
  | _ => false

/-- Bytes of an access by size code: 4, 4, 8 (R156). -/
def ldBytes (w : Nat) : Nat := if memSize w = 2 then 8 else 4

def State.ldOp (s : State) (g : Nat) (pf : Bool) : State :=
  s.issue g 0x34 (fun w => memSp w != 3 && memSize w != 3) (fun w x s =>
    if x.p (rs1Field w) then s.setGleaner g (((x.setG (rdField w) 0 true).latch true).next)
    else
      let a := memAddr x w
      match s.accessFault (memSp w) a (ldBytes w) false with
      | some c => s.setGleaner g (x.trap c)
      | none =>
        if pf && (s.place1 g (memSp w) a).reloads then s.setGleaner g x.stall
        else
          let r := s.load g (memSp w) a (ldBytes w)
          let v : BitVec 64 := if memSize w = 1 then BitVec.ofInt 64 (signed 32 r.1) else BitVec.ofNat 64 r.1
          let s := s.when pf (fun s => s.bump (figRedund 7 1 0 0x100))
          s.setGleaner g (x.setG (rdField w) v (r.2 || pf)).next)

def State.stOp (s : State) (g : Nat) : State :=
  s.issue g 0x35 (fun w => memSp w != 3 && memSize w != 3) (fun w x s =>
    if x.p (rs1Field w) then s.setGleaner g (x.latch true).next
    else
      let a := memAddr x w
      match s.accessFault (memSp w) a (ldBytes w) true with
      | some c => s.setGleaner g (x.trap c)
      | none =>
        (s.storeBytes g (memSp w) a (x.p (rdField w)) (leBytes (ldBytes w) (x.g (rdField w)).toNat)).setGleaner g x.next)

def State.wldOp (s : State) (g : Nat) (pf : Bool) : State :=
  s.issue g 0x36 (fun w => memSp w != 3 && memSize w == 0 && wispOk (rdField w)) (fun w x s =>
    if x.p (rs1Field w) then s.setGleaner g (((x.setW (rdField w) 0 true).latch true).next)
    else
      let a := memAddr x w
      match s.accessFault (memSp w) a 16 false with
      | some c => s.setGleaner g (x.trap c)
      | none =>
        if pf && (s.place1 g (memSp w) a).reloads then s.setGleaner g x.stall
        else
          let r := s.load g (memSp w) a 16
          let s := s.when pf (fun s => s.bump (figRedund 7 1 0 0x100))
          s.setGleaner g (x.setW (rdField w) (BitVec.ofNat 128 r.1) (r.2 || pf)).next)

def State.wstOp (s : State) (g : Nat) : State :=
  s.issue g 0x37 (fun w => memSp w != 3 && memSize w == 0 && wispOk (rdField w)) (fun w x s =>
    if x.p (rs1Field w) then s.setGleaner g (x.latch true).next
    else
      let a := memAddr x w
      match s.accessFault (memSp w) a 16 true with
      | some c => s.setGleaner g (x.trap c)
      | none =>
        (s.storeBytes g (memSp w) a (x.wp (rdField w)) (leBytes 16 (x.w (rdField w)).toNat)).setGleaner g x.next)

/-! ### CRC, events and mail (R165 to R167) -/

/-- crc (R165): 1, 2, 4 or 8 bytes of rs2 by the size field. -/
def State.crcOp (s : State) (g : Nat) : State :=
  s.issue g 0x38 (lowZero 9) (fun w x s =>
    let n := 2 ^ bitsAt w 9 2
    let r := crcRaw (bitsAt (x.g (rs1Field w)).toNat 0 32) (leBytes n (x.g (rs2Field w)).toNat)
    s.setGleaner g (x.setG (rdField w) (BitVec.ofNat 64 r) (x.p (rs1Field w) || x.p (rs2Field w))).next)

def State.wcrcOp (s : State) (g : Nat) : State :=
  s.issue g 0x39 (fun w => lowZero 11 w && wispOk (rs2Field w)) (fun w x s =>
    let r := crcRaw (bitsAt (x.g (rs1Field w)).toNat 0 32) (leBytes 16 (x.w (rs2Field w)).toNat)
    s.setGleaner g (x.setG (rdField w) (BitVec.ofNat 64 r) (x.p (rs1Field w) || x.wp (rs2Field w))).next)

/-- fence: stores are performed as they issue, so it only continues (R148, R156). -/
def State.fenceOp (s : State) (g : Nat) : State :=
  s.issue g 0x3A (lowZero 26) (fun _ x s => s.setGleaner g x.next)

/-- Mask bits of the events present (R166): a step boundary after the issue, and a waiting reply. -/
def Gleaner.evBits (x : Gleaner) (mask : Nat) (boundary : Bool) : Nat :=
  (if bitAt mask 0 && boundary then 1 else 0) + (if bitAt mask 1 && !x.replies.isEmpty then 2 else 0)

def State.waitevOp (s : State) (g : Nat) : State :=
  s.issue g 0x3B (fun w => bitsAt w 2 14 == 0) (fun w x s =>
    let b := x.evBits (imm16 w) false
    if x.g (rs1Field w) = 0 ∨ b ≠ 0 then s.setGleaner g (x.setG (rdField w) (BitVec.ofNat 64 b) false).next
    else s.setGleaner g { x with wait := .event (BitVec.ofNat 2 (imm16 w)) (rdField w) })

/-- The end of a waitev: rd receives the events present, 0 on timeout (R166). -/
def Gleaner.endWait (x : Gleaner) (boundary timeout : Bool) : Gleaner :=
  match x.wait with
  | .event m rd =>
    let b := x.evBits m.toNat boundary
    if b ≠ 0 then (x.setG rd (BitVec.ofNat 64 b) false).next
    else if timeout then (x.setG rd 0 false).next
    else x
  | _ => x

/-- Messages of a mailbox, and replies of a gleaner (R167). -/
def mailboxCap : Nat := 64
def replyCap : Nat := 4

/-- mail (R167): tagged with the sheaf held, or with 0 while none is held, where the manual gives no number (DESIGN CHOICE,
log 161). -/
def State.mailOp (s : State) (g : Nat) : State :=
  s.issue g 0x3C (fun w => rdField w == 0 && lowZero 11 w) (fun w x s =>
    if mailboxCap ≤ s.core.mailbox.length then s
    else
      let m : Mail :=
        { gleaner := g, seq := (x.sheaf.map Sheaf.seq).getD 0, lo := x.g (rs1Field w), hi := x.g (rs2Field w)
          poison := x.p (rs1Field w) || x.p (rs2Field w) || x.sp }
      (s.modCore (fun c => { c with mailbox := c.mailbox ++ [m] })).setGleaner g x.next)

def State.mrecvOp (s : State) (g : Nat) : State :=
  s.issue g 0x3D (fun w => lowZero 21 w) (fun w x s =>
    match x.replies with
    | [] => s
    | r :: rest => s.setGleaner g ({ x with replies := rest }.setG (rdField w) r false).next)

def State.nopOp (s : State) (g : Nat) : State :=
  s.issue g 0x3E (lowZero 26) (fun _ x s => s.setGleaner g x.next)

/-! ### Meanings -/

def slt64 (a b : BitVec 64) : Bool := decide (a.toInt < b.toInt)

def execAdd (g : Fin 128) (s : State) : Host.Outcome State Fault Refusal := .next (s.regOp g 0x01 (· + ·))
def execSub (g : Fin 128) (s : State) : Host.Outcome State Fault Refusal := .next (s.regOp g 0x02 (· - ·))
def execAnd (g : Fin 128) (s : State) : Host.Outcome State Fault Refusal := .next (s.regOp g 0x03 (· &&& ·))
def execOr (g : Fin 128) (s : State) : Host.Outcome State Fault Refusal := .next (s.regOp g 0x04 (· ||| ·))
def execXor (g : Fin 128) (s : State) : Host.Outcome State Fault Refusal := .next (s.regOp g 0x05 (· ^^^ ·))
def execShl (g : Fin 128) (s : State) : Host.Outcome State Fault Refusal :=
  .next (s.regOp g 0x06 (fun a b => a <<< (b.toNat % 64)))
def execShr (g : Fin 128) (s : State) : Host.Outcome State Fault Refusal :=
  .next (s.regOp g 0x07 (fun a b => a >>> (b.toNat % 64)))
def execSra (g : Fin 128) (s : State) : Host.Outcome State Fault Refusal :=
  .next (s.regOp g 0x08 (fun a b => a.sshiftRight (b.toNat % 64)))
def execMul (g : Fin 128) (s : State) : Host.Outcome State Fault Refusal := .next (s.regOp g 0x09 (· * ·))
def execMin (g : Fin 128) (s : State) : Host.Outcome State Fault Refusal :=
  .next (s.regOp g 0x0A (fun a b => if slt64 b a then b else a))
def execMax (g : Fin 128) (s : State) : Host.Outcome State Fault Refusal :=
  .next (s.regOp g 0x0B (fun a b => if slt64 a b then b else a))
def execSlt (g : Fin 128) (s : State) : Host.Outcome State Fault Refusal :=
  .next (s.regOp g 0x0C (fun a b => if slt64 a b then 1 else 0))
def execSltu (g : Fin 128) (s : State) : Host.Outcome State Fault Refusal :=
  .next (s.regOp g 0x0D (fun a b => if a.toNat < b.toNat then 1 else 0))
def execBeq (g : Fin 128) (s : State) : Host.Outcome State Fault Refusal := .next (s.branch g 0x0E (fun a b => a == b))
def execBne (g : Fin 128) (s : State) : Host.Outcome State Fault Refusal := .next (s.branch g 0x0F (fun a b => a != b))
def execAddi (g : Fin 128) (s : State) : Host.Outcome State Fault Refusal :=
  .next (s.immOp g 0x10 (fun a w => a + sextImm w))
def execAndi (g : Fin 128) (s : State) : Host.Outcome State Fault Refusal :=
  .next (s.immOp g 0x11 (fun a w => a &&& zextImm w))
def execOri (g : Fin 128) (s : State) : Host.Outcome State Fault Refusal :=
  .next (s.immOp g 0x12 (fun a w => a ||| zextImm w))
def execXori (g : Fin 128) (s : State) : Host.Outcome State Fault Refusal :=
  .next (s.immOp g 0x13 (fun a w => a ^^^ zextImm w))
def execShli (g : Fin 128) (s : State) : Host.Outcome State Fault Refusal :=
  .next (s.shiftImm g 0x14 (fun a n => a <<< n))
def execShri (g : Fin 128) (s : State) : Host.Outcome State Fault Refusal :=
  .next (s.shiftImm g 0x15 (fun a n => a >>> n))
def execSrai (g : Fin 128) (s : State) : Host.Outcome State Fault Refusal :=
  .next (s.shiftImm g 0x16 (fun a n => a.sshiftRight n))
def execLdi (g : Fin 128) (s : State) : Host.Outcome State Fault Refusal := .next (s.ldiOp g)
def execLhi (g : Fin 128) (s : State) : Host.Outcome State Fault Refusal := .next (s.lhiOp g)
def execBlt (g : Fin 128) (s : State) : Host.Outcome State Fault Refusal := .next (s.branch g 0x19 slt64)
def execBge (g : Fin 128) (s : State) : Host.Outcome State Fault Refusal :=
  .next (s.branch g 0x1A (fun a b => !slt64 a b))
def execJal (g : Fin 128) (s : State) : Host.Outcome State Fault Refusal := .next (s.jalOp g)
def execJr (g : Fin 128) (s : State) : Host.Outcome State Fault Refusal := .next (s.jrOp g)
def execFex (g : Fin 128) (s : State) : Host.Outcome State Fault Refusal := .next (s.fexOp g 0x1D false)
def execFexs (g : Fin 128) (s : State) : Host.Outcome State Fault Refusal := .next (s.fexOp g 0x1E true)
def execFins (g : Fin 128) (s : State) : Host.Outcome State Fault Refusal := .next (s.finsOp g)
def execWfex (g : Fin 128) (s : State) : Host.Outcome State Fault Refusal := .next (s.wfexOp g)
def execWfins (g : Fin 128) (s : State) : Host.Outcome State Fault Refusal := .next (s.wfinsOp g)
def execWmov (g : Fin 128) (s : State) : Host.Outcome State Fault Refusal := .next (s.wmovOp g)
def execLut (g : Fin 128) (pf : Bool) (s : State) : Host.Outcome State Fault Refusal := .next (s.lutOp g pf)
def execWlut (g : Fin 128) (pf : Bool) (s : State) : Host.Outcome State Fault Refusal := .next (s.wlutOp g pf)
def execCurve (g : Fin 128) (pf : Bool) (s : State) : Host.Outcome State Fault Refusal := .next (s.curveOp g pf)
def execTadd (g : Fin 128) (s : State) : Host.Outcome State Fault Refusal := .next (s.taddInstr g)
def execTsub (g : Fin 128) (s : State) : Host.Outcome State Fault Refusal := .next (s.tsubInstr g)
def execRnext (g : Fin 128) (bad : BitVec 3) (s : State) : Host.Outcome State Fault Refusal := .next (s.rnextOp g bad)
def execRctx (g : Fin 128) (bad : BitVec 3) (s : State) : Host.Outcome State Fault Refusal := .next (s.rctxOp g bad)
def execRemit (g : Fin 128) (s : State) : Host.Outcome State Fault Refusal := .next (s.remitOp g)
def execRdrop (g : Fin 128) (s : State) : Host.Outcome State Fault Refusal := .next (s.rdropOp g)
def execRflag (g : Fin 128) (s : State) : Host.Outcome State Fault Refusal := .next (s.rflagOp g)
def execPemit (g : Fin 128) (s : State) : Host.Outcome State Fault Refusal := .next (s.pemitOp g)
def execPtest (g : Fin 128) (s : State) : Host.Outcome State Fault Refusal := .next (s.ptestOp g)
def execGain (g : Fin 128) (s : State) : Host.Outcome State Fault Refusal := .next (s.regOp g 0x2F gainOp)
def execTake (g : Fin 128) (s : State) : Host.Outcome State Fault Refusal := .next (s.takeOp g)
def execDone (g : Fin 128) (s : State) : Host.Outcome State Fault Refusal := .next (s.doneOp g)
def execSget (g : Fin 128) (s : State) : Host.Outcome State Fault Refusal := .next (s.sgetOp g)
def execCtot (g : Fin 128) (s : State) : Host.Outcome State Fault Refusal := .next (s.regOp g 0x33 ctotOp)
def execLd (g : Fin 128) (pf : Bool) (s : State) : Host.Outcome State Fault Refusal := .next (s.ldOp g pf)
def execSt (g : Fin 128) (s : State) : Host.Outcome State Fault Refusal := .next (s.stOp g)
def execWld (g : Fin 128) (pf : Bool) (s : State) : Host.Outcome State Fault Refusal := .next (s.wldOp g pf)
def execWst (g : Fin 128) (s : State) : Host.Outcome State Fault Refusal := .next (s.wstOp g)
def execCrc (g : Fin 128) (s : State) : Host.Outcome State Fault Refusal := .next (s.crcOp g)
def execWcrc (g : Fin 128) (s : State) : Host.Outcome State Fault Refusal := .next (s.wcrcOp g)
def execFenceInstruction (g : Fin 128) (s : State) : Host.Outcome State Fault Refusal := .next (s.fenceOp g)
def execWaitev (g : Fin 128) (s : State) : Host.Outcome State Fault Refusal := .next (s.waitevOp g)

/-- WAITEV_TIMEOUT (R166): an event that is present in the expiry cycle ends the wait with its bit (R19). -/
def execWaitevTimeout (g : Fin 128) (s : State) : Host.Outcome State Fault Refusal :=
  .next (s.when (s.awake && s.gleanerUp g) (fun s => s.modGleaner g (fun x => x.endWait false true)))

def execMail (g : Fin 128) (s : State) : Host.Outcome State Fault Refusal := .next (s.mailOp g)
def execMrecv (g : Fin 128) (s : State) : Host.Outcome State Fault Refusal := .next (s.mrecvOp g)
def execNopInstruction (g : Fin 128) (s : State) : Host.Outcome State Fault Refusal := .next (s.nopOp g)
end Sys2Proof.Machine
end

