-- ==== Sys2Proof/Machine/Memory.lean ====
section
/-!
DEFINITION. The latency buffer: GDDR7 lines and their check, the ring and its directory, the table store, poison rewrites, the
merge buffer, the scrubber and the split-write window (R198 to R226).
-/

namespace Sys2Proof.Machine

/-! ### The memory map (R200) -/

/-- Lines of the latency ring, L (R200, R205). -/
def Ring.size (r : Ring) : Nat := if r.density = 16 then 29360128 else 46137344

def dirLines : Nat := 56320
def testLines : Nat := 1024
def stagingLines : Nat := 2039808
def storeLines : Nat := 2097152

/-- Slots of the slice directory (R206). -/
def dirSlots : Nat := 112640

/-- First lines of the areas above the ring. -/
def Ring.testStart (r : Ring) : Nat := r.size + dirLines
def Ring.stagingStart (r : Ring) : Nat := r.testStart + testLines
def Ring.storeStart (r : Ring) : Nat := r.stagingStart + stagingLines
def Ring.lineCount (r : Ring) : Nat := r.storeStart + storeLines

/-- The five areas (R200). -/
inductive Area where
  | ring | directory | test | staging | store
  deriving DecidableEq, Repr

/-- AREA codes (R202). -/
def Area.code : Area → Nat
  | .ring => 1 | .directory => 2 | .test => 3 | .staging => 4 | .store => 5

/-- The area of a line. -/
def Ring.area (r : Ring) (n : Nat) : Area :=
  if n < r.size then .ring
  else if n < r.testStart then .directory
  else if n < r.stagingStart then .test
  else if n < r.storeStart then .staging
  else .store

/-! ### The line (R201 to R203) -/

/-- A line header (R202). -/
structure LineHead where
  pass   : Nat
  epoch  : Nat
  slice  : Nat
  nrec   : Nat
  area   : Nat
  poison : Bool
  init   : Bool
  last   : Bool
  kept   : Bool
  deriving DecidableEq, Repr

def b2n (b : Bool) : Nat := if b then 1 else 0

def LineHead.word (h : LineHead) : Nat :=
  h.pass % 65536 * 2 ^ 48 + h.epoch % 65536 * 2 ^ 32 + h.slice % 4096 * 2 ^ 20 + h.nrec % 8 * 2 ^ 17 + h.area % 16 * 2 ^ 13 +
    b2n h.poison * 2 ^ 12 + b2n h.init * 2 ^ 11 + b2n h.last * 2 ^ 10 + b2n h.kept * 2 ^ 9

def lineHead (l : Line) : LineHead :=
  let w := bitsAt l.toNat 896 64
  { pass := bitsAt w 48 16, epoch := bitsAt w 32 16, slice := bitsAt w 20 12, nrec := bitsAt w 17 3, area := bitsAt w 13 4
    poison := bitAt w 12, init := bitAt w 11, last := bitAt w 10, kept := bitAt w 9 }

/-- Payload of a line, bytes 0 to 111. -/
def linePayload (l : Line) : Nat := bitsAt l.toNat 0 896

/-- The write marker of a line number and a writer (R203). -/
def lineMark (n writer : Nat) : Nat := n % 2 ^ 26 * 64 + writer * 4

/-- A line with its check (R201): payload, header word, marker and CRC-32C. -/
def makeLine (payload head mark : Nat) : Line :=
  let body := payload % 2 ^ 896 + head % 2 ^ 64 * 2 ^ 896 + mark % 2 ^ 32 * 2 ^ 960
  BitVec.ofNat 1024 (body + crc32c (leBytes 124 body) * 2 ^ 992)

/-- The CRC of a line matches (R203). -/
def lineCrcOk (l : Line) : Bool :=
  crc32c (leBytes 124 (bitsAt l.toNat 0 992)) == bitsAt l.toNat 992 32

/-- LINE of a line's marker equals its number (R203). -/
def lineAtHome (n : Nat) (l : Line) : Bool := bitsAt l.toNat 966 26 == n % 2 ^ 26

/-- A fetch of line n is good (R203). -/
def lineGood (n : Nat) (l : Line) : Bool := lineCrcOk l && lineAtHome n l

/-- Writer codes (R203). -/
def writerCollector : Nat := 1
def writerDirectory : Nat := 2
def writerMerge : Nat := 3
def writerPoison : Nat := 4
def writerClear : Nat := 5
def writerSweep : Nat := 6
def writerLoader : Nat := 7
def writerStaging : Nat := 8

/-- A header with every field zero but the area. -/
def headOf (a : Area) : LineHead := ⟨0, 0, 0, 0, a.code, false, false, false, false⟩

/-- A line of the initialisation sweep (R220). -/
def sweepLine (a : Area) (n : Nat) : Line :=
  makeLine 0 ({ headOf a with init := true }.word) (lineMark n writerSweep)

/-! ### The table store (R213) -/

/-- Lines of an image slot, and the line at which the live copies start. -/
def imageLines : Nat := 786432
def liveStart : Nat := 2 * imageLines

/-- Bytes of the payload of a line. -/
def linePay : Nat := 112

/-- Live copies in their order: the tables that the program holds in ascending ID, then the code section, each with its
length. -/
def State.liveCopies (s : State) : List (Nat × Nat) :=
  match s.node.prog with
  | none => []
  | some p => p.sizes.map (fun x => (x.1, x.2)) ++ [(codeTable, p.code.length)]

/-- First line of each live copy, from the start of the area of live copies. -/
def placeCopies : Nat → List (Nat × Nat) → List (Nat × Nat × Nat)
  | _, [] => []
  | at_, (id, n) :: l => (at_, id, n) :: placeCopies (at_ + (n + linePay - 1) / linePay) l

/-- The live copy that holds a line of their area: its table, its length, and the byte offset of the line. -/
def State.liveAt (s : State) (n : Nat) : Option (Nat × Nat × Nat) :=
  ((placeCopies 0 s.liveCopies).find? (fun c => decide (c.1 ≤ n) && decide (n < c.1 + (c.2.2 + linePay - 1) / linePay))).map
    (fun c => (c.2.1, c.2.2, (n - c.1) * linePay))

/-- A line of the table store as the loader or a table write left it. -/
def State.storeLine (s : State) (n : Nat) : Line :=
  let k := n - s.ring.storeStart
  let made := fun (bs : List Byte) => makeLine (leNat bs) (headOf .store).word (lineMark n writerLoader)
  let image := fun (img : List Byte) (i : Nat) =>
    let bs := (img.drop (i * linePay)).take linePay
    if bs.isEmpty then sweepLine .store n else made bs
  if k < imageLines then image s.ring.image0 k
  else if k < liveStart then image s.ring.image1 (k - imageLines)
  else
    match s.liveAt (k - liveStart) with
    | none => sweepLine .store n
    | some (id, len, off) => made (bytesAt (s.table id) off (min linePay (len - off)))

/-! ### Lines of memory -/

/-- What a line holds when nothing but the sweep and the table store has written it. Before the sweep the manual says
nothing. -/
def State.baseLine (s : State) (n : Nat) : Line :=
  if !s.ring.swept then Config.unsweptLine n
  else
    match s.ring.area n with
    | .store => s.storeLine n
    | a => sweepLine a n

/-- The line stored at a number. -/
def State.lineAt (s : State) (n : Nat) : Line :=
  match s.ring.lines.find? (fun p => p.1 == n) with
  | some p => p.2
  | none => s.baseLine n

/-- Store a line, keeping the list canonical: rising, and without a line that it need not hold. -/
def State.setLine (s : State) (n : Nat) (l : Line) : State :=
  { s with ring := { s.ring with
      lines := if l = s.baseLine n then Tbl.del n s.ring.lines else Tbl.put n l s.ring.lines } }

/-- An entry of the merge buffer for a line (R215). -/
def Ring.entry (r : Ring) (n : Nat) : Option MergeEntry := r.merge.find? (fun e => e.line == n)

/-- Overlay the valid bytes of an entry over a line (R215). -/
def overlay (l : Line) (e : MergeEntry) : Line :=
  (List.range 128).foldl (fun x i =>
    if e.valid.getLsbD i then
      BitVec.ofNat 1024 (x.toNat - bitsAt x.toNat (8 * i) 8 * 2 ^ (8 * i) + bitsAt e.data.toNat (8 * i) 8 * 2 ^ (8 * i))
    else x) l

/-- What a read of a line gives: the line overlaid with the merge buffer's valid bytes (R215). -/
def State.readLine (s : State) (n : Nat) : Line :=
  match s.ring.entry n with
  | some e => overlay (s.lineAt n) e
  | none => s.lineAt n

/-- The bytes of a line. -/
def lineBytes (l : Line) : List Byte := leBytes 128 l.toNat

/-! ### The merge buffer (R215, R216) -/

/-- Figure of MEMORY (R227) of a hub. -/
def figMem (h : Hub) (row : Nat) (q : Nat := 0) (idx : Nat := whole) : Fig := ⟨0x03, row, q, h.idx + 1, idx⟩

/-- Figure of MEMORY that both hubs count alike (R227). -/
def figMemBoth (row : Nat) (q : Nat := 0) : Fig := ⟨0x03, row, q, 0, whole⟩

/-- The merge buffer's write of bytes into a line (R215). -/
def MergeEntry.merge (e : MergeEntry) (off : Nat) (bs : List Byte) : MergeEntry :=
  bs.zipIdx.foldl (fun e p =>
    let i := off + p.2
    if i < 128 then
      { e with
        data := BitVec.ofNat 1024 (e.data.toNat - bitsAt e.data.toNat (8 * i) 8 * 2 ^ (8 * i) + p.1.toNat * 2 ^ (8 * i))
        valid := e.valid ||| BitVec.ofNat 128 (2 ^ i) }
    else e) e

/-- Every byte of the entry is valid. -/
def MergeEntry.full (e : MergeEntry) : Bool := e.valid == BitVec.allOnes 128

/-- The parity bits of an entry, one for each 32 data bits (R27, R215): a view of the data. -/
def MergeEntry.parity (e : MergeEntry) : List Bool :=
  (List.range 32).map (fun i => parityBit (BitVec.ofNat 32 (bitsAt e.data.toNat (32 * i) 32)))

/-- Entries of the merge buffer (R215). -/
def mergeEntries : Nat := 32

/-- Bytes merge into the entry of a line, or into a free one; the write of an entry that becomes full starts (R215, R216). -/
def Ring.mergeIn (r : Ring) (line off : Nat) (bs : List Byte) : Ring :=
  let e := ((r.entry line).getD ⟨line, 0, 0, false⟩).merge off bs
  { r with merge := r.merge.filter (fun x => x.line != line) ++ [{ e with locked := e.full }] }

/-- A line whose entry is being written: any access to it waits (R216). -/
def Ring.isLocked (r : Ring) (line : Nat) : Bool :=
  match r.entry line with
  | some e => e.locked
  | none => false

/-- A write to a line must wait (R216): the line is locked, an earlier write to it waits, or it needs an entry while none is
free. -/
def Ring.mustWait (r : Ring) (line : Nat) : Bool :=
  r.mergeQ.any (fun x => x.1 == line) || r.isLocked line ||
    ((r.entry line).isNone && decide (mergeEntries ≤ r.merge.length))

/-- The write of a line's entry starts, and locks it (R216). -/
def Ring.lock (r : Ring) (line : Nat) : Ring :=
  { r with merge := r.merge.map (fun e => if e.line = line then { e with locked := true } else e) }

/-- A writer needs an entry while none is free: the write of the least recently written entry that is not locked starts
(R216). -/
def Ring.evict (r : Ring) : Ring :=
  match r.merge.find? (fun e => !e.locked) with
  | some v => r.lock v.line
  | none => r

/-- A write that waits. -/
def Ring.waitIn (r : Ring) (line off : Nat) (bs : List Byte) : Ring :=
  { r with mergeQ := r.mergeQ ++ [(line, off, bs)] }

/-- A write through the merge buffer (R215, R216). -/
def State.mergeWrite (s : State) (line off : Nat) (bs : List Byte) : State :=
  let r := s.ring
  if r.mustWait line then
    let needs := (r.entry line).isNone && !r.mergeQ.any (fun x => x.1 == line)
    ({ s with ring := (if needs then r.evict else r).waitIn line off bs }).bump (figMemBoth 8 2)
  else { s with ring := r.mergeIn line off bs }

/-- Writes that waited go on, oldest first, as entries come free (R216). -/
def Ring.drain : List (Nat × Nat × List Byte) → Ring → Ring
  | [], r => r
  | x :: l, r =>
    if r.mustWait x.1 then
      let r := if r.merge.any (·.locked) then r else r.evict
      Ring.drain l (r.waitIn x.1 x.2.1 x.2.2)
    else Ring.drain l (r.mergeIn x.1 x.2.1 x.2.2)

/-- Write a full line; a line that has an entry takes the new content there (R215). -/
def State.writeFull (s : State) (n : Nat) (l : Line) : State :=
  match s.ring.entry n with
  | some _ => s.mergeWrite n 0 (lineBytes l)
  | none => s.setLine n l

/-! ### The directory (R206 to R209, R212) -/

/-- A directory entry (R207). -/
structure DirEntry where
  seq    : Nat
  pass   : Nat
  first  : Nat
  nlines : Nat
  fenced : Nat
  hold   : Bool
  forced : Bool
  poison : Bool
  loss   : Bool
  nohit  : Bool
  gap    : Bool
  regoff : List Nat
  tmin   : Int
  tmax   : Int
  nrec   : Nat
  deriving DecidableEq, Repr

def DirEntry.bits (e : DirEntry) : Nat :=
  e.seq % 2 ^ 44 + e.pass % 65536 * 2 ^ 44 + e.first % 2 ^ 26 * 2 ^ 64 + e.nlines % 65536 * 2 ^ 96 + e.fenced % 256 * 2 ^ 112 +
    b2n e.hold * 2 ^ 120 + b2n e.forced * 2 ^ 121 + b2n e.poison * 2 ^ 122 + b2n e.loss * 2 ^ 123 + b2n e.nohit * 2 ^ 124 +
    b2n e.gap * 2 ^ 125 +
    ((List.range 8).foldl (fun a r => a + e.regoff.getD r 0xFFFF % 65536 * 2 ^ (128 + 16 * r)) 0) +
    unsigned 35 e.tmin * 2 ^ 256 + unsigned 35 e.tmax * 2 ^ 320 + e.nrec % 2 ^ 24 * 2 ^ 384

def dirEntry (x : Nat) : DirEntry :=
  { seq := bitsAt x 0 44, pass := bitsAt x 44 16, first := bitsAt x 64 26, nlines := bitsAt x 96 16, fenced := bitsAt x 112 8
    hold := bitAt x 120, forced := bitAt x 121, poison := bitAt x 122, loss := bitAt x 123, nohit := bitAt x 124
    gap := bitAt x 125, regoff := (List.range 8).map (fun r => bitsAt x (128 + 16 * r) 16)
    tmin := signed 35 (bitsAt x 256 35), tmax := signed 35 (bitsAt x 320 35), nrec := bitsAt x 384 24 }

/-- Slot of a slice (R206). -/
def Ring.slot (r : Ring) (q : Nat) : Nat := (q + 2 ^ 44 - r.q0 % 2 ^ 44) % 2 ^ 44 % dirSlots

/-- Outcomes of a lookup (R208). -/
inductive Lookup where
  | prestart | notYet | gone
  | present (e : DirEntry)
  deriving DecidableEq, Repr

/-- PASS that the directory line of a slot is expected to carry (R206, R222): a line written since j last returned to 0 carries D,
the others D − 1. -/
def Ring.dirPass (r : Ring) (slot : Nat) : BitVec 16 := if slot / 2 * 2 + 1 < r.j then r.d else r.d - 1

/-- The entry that a slot of the directory holds: none in a line that is empty (R221, R222); an even entry that waits for its partner
is served from the writer (R206). -/
def State.slotEntry (s : State) (slot : Nat) : Option DirEntry :=
  let r := s.ring
  let stored :=
    let l := s.readLine (r.size + slot / 2)
    let h := lineHead l
    if h.init || h.pass != (r.dirPass slot).toNat then none
    else some (dirEntry (bitsAt (linePayload l) (448 * (slot % 2)) 448))
  match r.even with
  | some x => if slot + 1 = r.j then some (dirEntry x.toNat) else stored
  | none => stored

/-- The active hub joined after slice q: it never wrote it (R375). -/
def State.beforeJoin (s : State) (q : Nat) : Bool :=
  match (s.hubRed s.red.active).joinSeq with
  | some j => decide (q < j)
  | none => false

/-- The lookup of slice q (R206, R208, R375). -/
def State.lookup (s : State) (q : Nat) : Lookup :=
  let r := s.ring
  match r.newest with
  | none => if q < r.q0 then .prestart else .notYet
  | some newest =>
    if q < r.q0 then .prestart
    else if newest < q then .notYet
    else if s.beforeJoin q then .gone
    else
      match s.slotEntry (r.slot q) with
      | some e => if e.seq = q % 2 ^ 44 then .present e else .gone
      | none => .gone

/-- Number and expected pass of line k of a slice (R208). -/
def Ring.lineOf (r : Ring) (e : DirEntry) (k : Nat) : Nat × Nat :=
  if r.size ≤ e.first + k then ((e.first + k) % r.size, (e.pass + 1) % 65536) else (e.first + k, e.pass)

/-- The pass expected of ring line i (R205). -/
def Ring.expected (r : Ring) (i : Nat) : BitVec 16 := if i < r.w then r.p else r.p - 1

/-- The header that the reader of line k of a slice expects (R205, R208, R211). -/
def DirEntry.lineHead (d : DirEntry) (q pass k : Nat) : LineHead :=
  { pass := pass, epoch := q / 4096 % 65536, slice := q % 4096, area := Area.ring.code, poison := false, init := false
    nrec := if k + 1 < d.nlines then 7 else d.nrec - 7 * (d.nlines - 1), last := k + 1 == d.nlines, kept := false }

/-- A header is that of a line of the slice (R208). -/
def LineHead.fits (h e : LineHead) : Bool := h.pass == e.pass && h.epoch == e.epoch && h.slice == e.slice && !h.init

/-- The slice that a ring line was last written for, with its entry and the line's place in it: the newest whose entry names the line
(R208). -/
def State.sliceAt (s : State) (n : Nat) : Option (Nat × DirEntry × Nat) :=
  match s.ring.newest with
  | none => none
  | some newest =>
    (List.range (min (newest + 1 - s.ring.q0) dirSlots)).findSome? (fun i =>
      match s.lookup (newest - i) with
      | .present d =>
        let k := (n + s.ring.size - d.first) % s.ring.size
        if k < d.nlines then some (newest - i, d, k) else none
      | _ => none)

/-- A ring line lies in a slice still retained (R209): listed in the directory, and with no line of it overwritten. -/
def State.retained (s : State) (n : Nat) : Bool :=
  match s.sliceAt n with
  | some (_, d, _) => d.pass == (s.ring.expected d.first).toNat
  | none => false

/-- The slice that capture reads, when the line is the one it reads next (R242). -/
def State.capturing (s : State) (n : Nat) : Option (Nat × DirEntry × Nat) :=
  match s.trig.cap with
  | none => none
  | some c =>
    match c.slices with
    | [] => none
    | q :: _ =>
      match s.lookup q with
      | .present d => if (s.ring.lineOf d c.line).1 = n then some (q, d, c.line) else none
      | _ => none

/-- What the reader of a ring line expects of it: capture what its slice's entry says, any other reader the slice retained there
(R211). -/
def State.expecting (s : State) (n : Nat) : Option (Nat × DirEntry × Nat) :=
  match s.capturing n with
  | some x => some x
  | none => if s.retained n then s.sliceAt n else none

/-- The header that the reader of a line expects (R202, R211). DESIGN CHOICE: of a ring line that no slice retained names, the header
stored (log 163). -/
def State.expectHead (s : State) (n : Nat) : LineHead :=
  match s.ring.area n with
  | .ring =>
    (match s.expecting n with
     | some (q, d, k) => d.lineHead q (s.ring.lineOf d k).2 k
     | none => lineHead (s.lineAt n))
  | a => headOf a

/-- A directory line holding two entries (R201, R202). -/
def State.writeDirLine (s : State) (slot : Nat) (pass : BitVec 16) (even odd : Nat) (writer : Nat) : State :=
  let n := s.ring.size + slot / 2
  s.writeFull n (makeLine (even + odd * 2 ^ 448) ({ headOf .directory with pass := pass.toNat }.word) (lineMark n writer))

/-- The directory writer takes the entry of the next slice (R206). -/
def State.dirWrite (s : State) (e : DirEntry) : State :=
  let r := s.ring
  let s :=
    if r.j % 2 = 0 then { s with ring := { r with even := some (BitVec.ofNat 448 e.bits) } }
    else
      let s := s.writeDirLine r.j r.d ((r.even.map (·.toNat)).getD 0) e.bits writerDirectory
      { s with ring := { s.ring with even := none } }
  let j := (r.j + 1) % dirSlots
  { s with ring := { s.ring with j := j, d := if j = 0 then r.d + 1 else r.d, newest := some e.seq } }

/-! ### Records of a ring line (R205, R211) -/

/-- KIND of a stored record. -/
def chrKind (r : Rec128) : Nat := bitsAt r.toNat 124 4

/-- Corrected time of a CHR in fine ticks from the start of epoch 0 (R129, R234). -/
def chrTime (q : Nat) (r : Rec128) : Int :=
  ((q / 4096 * 2 ^ 33 : Nat) : Int) + signed 2 (bitsAt r.toNat 110 2) * 2 ^ 33 + (bitsAt r.toNat 77 33 : Nat)

/-- Slot k of a line. -/
def lineSlot (l : Line) (k : Nat) : Rec128 := BitVec.ofNat 128 (bitsAt l.toNat (128 * k) 128)

/-- Records that the reader of a ring line receives (R211). -/
def lineRecords (l : Line) : List Rec128 :=
  let h := lineHead l
  let slots := (List.range h.nrec).map (lineSlot l)
  if !h.poison then slots
  else if h.kept then
    slots.map (fun r =>
      let k := chrKind r
      let n := if k = 0 ∨ (7 < k ∧ k ≠ 0xE) then bitsAt r.toNat 0 124 + 0xE * 2 ^ 124 else r.toNat
      BitVec.ofNat 128 n ||| BitVec.ofNat 128 (2 ^ 39))
  else
    [BitVec.ofNat 128 (0x4 * 2 ^ 124 + 0xD * 2 ^ 120 + h.slice * 4096 * 2 ^ 96 + h.nrec * 2 ^ 80)]

/-- A record of a slice as its directory entry sees it: the line it lies in, its region where it has one, and itself. -/
structure Placed where
  line   : Nat
  region : Option Nat
  chr    : Rec128
  deriving DecidableEq, Repr

/-- What the slice marker says of a slice (R127, R207). -/
structure SliceSays where
  fenced : Nat
  nlost  : Nat
  hold   : Bool
  forced : Bool
  deriving DecidableEq, Repr

/-- The directory entry of a slice that starts at a line of a pass, from its CHRs and its marker (R207). -/
def entryOf (q first pass lines nrec : Nat) (chrs : List Placed) (m : SliceSays) : DirEntry :=
  let hits := chrs.filter (fun c => chrKind c.chr == 1)
  let base : Int := (q / 4096 * 2 ^ 33 : Nat)
  let ts := hits.map (fun c => chrTime q c.chr - base)
  { seq := q, pass := pass, first := first, nlines := lines, fenced := m.fenced, hold := m.hold, forced := m.forced
    poison := chrs.any (fun c => bitAt c.chr.toNat 39 || chrKind c.chr == 0xE)
    loss := chrs.any (fun c => chrKind c.chr == 4) || decide (0 < m.nlost)
    nohit := hits.isEmpty, gap := false
    regoff := (List.range 8).map (fun r => ((chrs.find? (fun c => c.region == some r)).map (·.line)).getD 0xFFFF)
    tmin := ts.foldl min (ts.headD 0), tmax := ts.foldl max (ts.headD 0), nrec := nrec }

/-- The region of a stored CHR, by its channel (R129): of a hit, and of a poisoned record whose channel is known. DEDUCED: a loss
record names no region (log 162). -/
def chrRegion (r : Rec128) : Option Nat :=
  let ch := bitsAt r.toNat 112 12
  if chrKind r = 1 ∨ (chrKind r = 0xE ∧ ch ≠ 0xFFF) then some (ch / 512) else none

/-- The entry rebuilt from the lines of a slice: every field from the records and the slice marker, a poisoned line included
(R212). -/
def rebuildEntry (q first pass : Nat) (ls : List Line) : DirEntry :=
  let rs := ls.zipIdx.flatMap (fun p => (lineRecords p.1).map (fun r => (⟨p.2, chrRegion r, r⟩ : Placed)))
  let m := ((rs.find? (fun c => chrKind c.chr == 3)).map (fun c => c.chr.toNat)).getD 0
  let told : SliceSays := ⟨bitsAt m 72 8, bitsAt m 32 16, bitAt m 15, bitAt m 14⟩
  let n := ((ls.map lineHead).map (·.nrec)).sum
  let e := entryOf q first pass ls.length n rs told
  { e with poison := e.poison || ls.any (fun l => (lineHead l).poison) }

/-! ### Check failures (R210 to R214) -/

/-- The first of three tries that gives a good line; an error pattern that is not given is zero. -/
def goodTry (n : Nat) (l : Line) (errs : List Line) : Option Nat :=
  [0, 1, 2].find? (fun i => lineGood n (l ^^^ errs.getD i 0))

/-- The poison rewrite of a line (R211): `e` the header that the reader expects, `f` the last fetch. -/
def poisonLine (n : Nat) (e : LineHead) (f : Line) : Line :=
  let h := lineHead f
  if lineAtHome n f && h.pass == e.pass && h.epoch == e.epoch && h.slice == e.slice && h.last == e.last then
    makeLine (linePayload f) ({ e with nrec := h.nrec, poison := true, kept := true }.word) (lineMark n writerPoison)
  else makeLine 0 ({ e with poison := true, kept := false }.word) (lineMark n writerPoison)

/-- Set POISON in the directory entry of a slice, through the merge buffer (R211): bit 10 of the field at byte 0x0E. -/
def State.markPoison (s : State) (q : Nat) : State :=
  match s.lookup q with
  | .present e =>
    let slot := s.ring.slot q
    let e' := { e with poison := true }
    if s.ring.even.isSome ∧ slot + 1 = s.ring.j then { s with ring := { s.ring with even := some (BitVec.ofNat 448 e'.bits) } }
    else s.mergeWrite (s.ring.size + slot / 2) (56 * (slot % 2) + 15) [BitVec.ofNat 8 (bitsAt e'.bits 120 8)]
  | _ => s

/-- Items of MEMPOISON and SCRUB: the area and the line (R211, R218). -/
def areaItems (a : Area) (n : Nat) : List (Nat × Nat) := [(a.code, 4), (n, 26)]

/-- The poison rewrite in a hub (R211, R213, R214): in one hub alone it is a local error; the copy of memory that the model
holds, the active hub's, changes with that hub. -/
def State.poisonRewrite (s : State) (h : Hub) (n : Nat) (last : Line) : State :=
  let a := s.ring.area n
  let was := (lineHead (s.lineAt n)).poison
  let s := (s.bump (figMem h 3 (a.code - 1))).localErr h .mempoison
  let s := s.post .mempoison (areaItems a n) (some h)
  let s := if a = .store ∧ was = false then (s.localErr h .tspoison).post .tspoison (areaItems a n) (some h) else s
  if h = s.red.active then
    let x := s.expecting n
    let s := s.writeFull n (poisonLine n (s.expectHead n) last)
    match a, x with
    | .ring, some (q, _, _) => s.markPoison q
    | _, _ => s
  else s

/-- The lines of a slice from its k-th on up to the one with LAST (R212); none when a line does not carry the expected header. -/
def State.linesFrom (s : State) (q : Nat) (d : DirEntry) : Nat → Nat → Option (List Line)
  | 0, _ => none
  | n + 1, k =>
    let x := s.ring.lineOf d k
    let l := s.readLine x.1
    let h := lineHead l
    if !h.fits (d.lineHead q x.2 k) then none
    else if h.last then some [l]
    else (s.linesFrom q d n (k + 1)).map (l :: ·)

/-- The slice whose entry a slot of the directory is to hold; none for a slot that the run has not written, and for an even slot that
waits in the writer (R206). -/
def Ring.sliceOf (r : Ring) (slot : Nat) : Option Nat :=
  match r.newest with
  | none => none
  | some m =>
    let back := (r.slot m + dirSlots - slot) % dirSlots
    if m < r.q0 + back ∨ (r.even.isSome ∧ slot + 1 = r.j) then none else some (m - back)

/-- An entry known only as poisoned (R212). -/
def DirEntry.lost (d : DirEntry) : Bool := d.poison && d.nlines == 0

/-- An entry with no line, its first line the one that the next slice starts with. -/
def emptyEntry (q first pass : Nat) : DirEntry :=
  { seq := q, pass := pass, first := first, nlines := 0, fenced := 0, hold := false, forced := false, poison := false, loss := false
    nohit := true, gap := false, regoff := List.replicate 8 0xFFFF, tmin := 0, tmax := 0, nrec := 0 }

/-- The recomputed entry of slice q (R212): FIRST and its pass follow the entry of the slice before, or start the run; the lines up to
LAST give every field. Where that fails the entry carries POISON and no line. -/
def State.recompute (s : State) (q : Nat) (before : Option DirEntry) : DirEntry :=
  let start : Option (Nat × Nat) :=
    if q = s.ring.q0 then some (0, s.ring.p0.toNat)
    else before.bind (fun d => if d.lost then none else some (s.ring.lineOf d d.nlines))
  let made := start.bind (fun x =>
    (s.linesFrom q (emptyEntry q x.1 x.2) 65536 0).map (rebuildEntry q x.1 x.2))
  made.getD { emptyEntry q 0 0 with poison := true }

/-- The entry before slice q, as a lookup gives it. -/
def State.entryBefore (s : State) (q : Nat) : Option DirEntry :=
  match s.lookup (q - 1) with
  | .present d => some d
  | _ => none

/-- What the recompute makes of the two slots of a directory line: the bits of an entry, and the slice of one that the run has
written (R212). -/
def State.recomputeLine (s : State) (slot : Nat) : (Nat × Option Nat) × (Nat × Option Nat) :=
  let p := linePayload (s.lineAt (s.ring.size + slot / 2))
  let even : Nat × Option Nat := match s.ring.sliceOf slot with
    | some q => ((s.recompute q (s.entryBefore q)).bits, some q)
    | none => (bitsAt p 0 448, none)
  let odd : Nat × Option Nat := match s.ring.sliceOf (slot + 1) with
    | some q => ((s.recompute q (match even.2 with
        | some _ => some (dirEntry even.1)
        | none => s.entryBefore q)).bits, some q)
    | none => (bitsAt p 448 448, none)
  (even, odd)

/-- Both entries of a directory line are recomputed and written back, DIRFIX logged for each that the run has written (R212). A line
without such an entry is written back as it was. -/
def State.dirFix (s : State) (h : Hub) (n : Nat) : State :=
  let slot := 2 * (n - s.ring.size)
  let l := s.lineAt n
  let r := s.recomputeLine slot
  let fix := fun (s : State) (q : Option Nat) => match q with
    | some q => ((s.bump (figMem h 5)).localErr h .dirfix).post .dirfix [(q % 2 ^ 44, 44)] (some h)
    | none => s
  let s := fix (fix s r.1.2) r.2.2
  if h ≠ s.red.active then s
  else if r.1.2.isSome || r.2.2.isSome then s.writeDirLine slot (s.ring.dirPass slot) r.1.1 r.2.1 writerDirectory
  else s.writeFull n l

/-- A fetch of a line and what a failed check leads to (R210 to R213). -/
def State.checkedFetch (s : State) (h : Hub) (n : Nat) (errs : List Line) : State :=
  let a := s.ring.area n
  let l := s.lineAt n
  match goodTry n l errs with
  | some 0 => s
  | some _ =>
    match a with
    | .directory => s.dirFix h n
    | .test => s
    | _ => s.bump (figMem h 2 (a.code - 1))
  | none =>
    match a with
    | .directory => s.dirFix h n
    | .test => s
    | _ => s.poisonRewrite h n (l ^^^ errs.getD 2 0)

/-- The write of an entry to GDDR7 (R216): a full entry with a new check and without a read; a partial one is merged over the line,
fetched and checked as every line, whose INIT it ends. A fetch that fails has been rewritten under the rule of its area. -/
def State.writeEntry (s : State) (e : MergeEntry) (errs : List Line) : State :=
  let s : State := { s with ring := { s.ring with merge := s.ring.merge.filter (fun x => x.line != e.line) } }
  let s := (if e.full then s else s.checkedFetch s.red.active e.line errs).bump (figMemBoth 8 (if e.full then 0 else 1))
  let l := overlay (s.lineAt e.line) e
  let head := if e.full then bitsAt l.toNat 896 64 else { lineHead l with init := false }.word
  s.setLine e.line (makeLine (linePayload l) head (lineMark e.line writerMerge))

/-- The writes that wait go on. -/
def State.mergeDrain (s : State) : State := { s with ring := Ring.drain s.ring.mergeQ { s.ring with mergeQ := [] } }

/-! ### Live copies (R213) -/

/-- The lines that hold bytes of the live copy of a table: line, offset in its payload, and the bytes, given the first line of the copy
(R213). -/
def copyChunks (first : Nat) : Nat → Nat → List Byte → List (Nat × Nat × List Byte)
  | 0, _, _ => []
  | n + 1, off, bs =>
    if bs.isEmpty then []
    else
      let k := linePay - off % linePay
      (first + off / linePay, off % linePay, bs.take k) :: copyChunks first n (off + k) (bs.drop k)

/-- The first line of the live copy of a table. -/
def State.copyStart (s : State) (id : Nat) : Option Nat :=
  ((placeCopies 0 s.liveCopies).find? (fun c => c.2.1 == id)).map (fun c => s.ring.storeStart + liveStart + c.1)

/-- A change of a table that its live copy follows, line by line through the merge buffer (R213, R215): a line holds what it held until
the write of its entry. -/
def State.changeTable (s : State) (id off : Nat) (bytes : List Byte) : State :=
  let chunks := match s.copyStart id with
    | some first => copyChunks first (bytes.length + 1) off bytes
    | none => []
  let old := chunks.map (fun c => (c.1, s.lineAt c.1))
  let s := s.setTable id (putBytes (s.table id) off bytes)
  let s := old.foldl (fun s c => s.setLine c.1 c.2) s
  chunks.foldl (fun s c => s.mergeWrite c.1 c.2.1 c.2.2) s

/-! ### Reloads (R137, R169, R213) -/

/-- The bytes of the table store that a gleaner's reload reads: those of its stalled read, or its instruction word. -/
def State.reloadSpan (s : State) (g : Nat) : Nat × Nat × Nat :=
  let x := s.gleaner g
  let w := s.codeWord x.pc
  let entries := fun (t i n : Nat) => match s.desc t with
    | some d => (d.id, i * d.size, n * d.size)
    | none => (codeTable, 0, 0)
  let placed := fun (n : Nat) => match s.place1 g (memSp w) (memAddr x w) with
    | .tab id off => (id, off, n)
    | _ => (codeTable, 0, 0)
  if x.wait ≠ .reload then (codeTable, x.pc.toNat, 4)
  else
    match opField w with
    | 0x23 | 0x24 => entries (tblT w) (x.g (rs1Field w) + BitVec.ofNat 64 (tblOff w)).toNat 1
    | 0x25 => entries (crvT w) (x.g (rs2Field w)).toNat 6
    | 0x34 => placed (ldBytes w)
    | _ => placed 16

/-- A reload reads a line that is poisoned (R213). -/
def State.reloadPoisoned (s : State) (g : Nat) : Bool :=
  let r := s.reloadSpan g
  match s.copyStart r.1 with
  | none => false
  | some first =>
    (copyChunks first (r.2.2 + 1) r.2.1 (List.replicate r.2.2 0)).any (fun c => (lineHead (s.readLine c.1)).poison)

/-- A reload that completes poisoned: counted, and a local error (R213, R214, R227). -/
def State.reloadFails (s : State) : State := (s.bump (figMem s.red.active 4)).localErr s.red.active .tspoison

/-- The stalled read completes: on success with the reloaded value, as the same instruction without a failure; otherwise with
a free poisoned value. -/
def State.finishReload (s : State) (g : Nat) (ok : Bool) : State :=
  let x := s.gleaner g
  let w := s.codeWord x.pc
  if ok then
    let s := s.setGleaner g { x with wait := .run }
    match opField w with
    | 0x23 => s.lutOp g false
    | 0x24 => s.wlutOp g false
    | 0x25 => s.curveOp g false
    | 0x34 => s.ldOp g false
    | _ => s.wldOp g false
  else
    let r := s.takeFree
    let x := { x with wait := .run }
    match opField w with
    | 0x24 | 0x36 => r.2.setGleaner g (x.setW (rdField w) (BitVec.ofNat 128 r.1) true).next
    | _ => r.2.setGleaner g (x.setG (rdField w) (BitVec.ofNat 64 r.1) true).next

/-- TABLE_RELOAD_DONE (R137, R169, R213): a stalled read completes, poisoned when the line of the live copy is; for a gleaner that
stalls on no read, the reload was that of its instruction word, and its failure is a FETCH fault. -/
def State.tableReloadDone (s : State) (g : Nat) : State :=
  let x := s.gleaner g
  s.when (s.awake && s.loaded && s.gleanerUp g && x.fault.isNone) (fun s =>
    let bad := s.reloadPoisoned g
    let s := s.when bad State.reloadFails
    if x.wait = .reload then s.finishReload g (!bad)
    else if bad then s.setGleaner g (x.trap 6)
    else s)

/-! ### Merge buffer rows -/

/-- MERGE_WRITE (R215, R216). -/
def State.mergeWriteRow (s : State) (line off : Nat) (bs : List Byte) : State :=
  s.when (s.live && decide (line < s.ring.lineCount) && decide (off + bs.length ≤ 128)) (fun s => s.mergeWrite line off bs)

/-- MERGE_ENTRY_IDLE (R216): the entry's write starts, and locks it. -/
def State.mergeIdle (s : State) (line : Nat) : State := { s with ring := s.ring.lock line }

/-- LINE_WRITE_DONE (R216): the write of a locked entry completes and frees it, and what waits goes on; `errs` the error patterns of
the fetch that a partial entry takes. -/
def State.lineWriteDone (s : State) (line : Nat) (errs : List Line) : State :=
  match s.ring.entry line with
  | some e => if e.locked then (s.writeEntry e errs).mergeDrain else s
  | none => s

/-- The merge buffer is written out, and what waits for it (R226). -/
def State.flushMerge (s : State) : State :=
  let s := s.ring.merge.foldl (fun s e => s.writeEntry e []) s
  let q := s.ring.mergeQ
  q.foldl (fun s x => s.writeEntry ((⟨x.1, 0, 0, false⟩ : MergeEntry).merge x.2.1 x.2.2) [])
    { s with ring := { s.ring with mergeQ := [] } }

/-! ### Scrubber (R217 to R219) -/

/-- A staging line is in use: a part or a frame lies on it (R218). -/
def State.stagingUsed (s : State) (n : Nat) : Bool :=
  s.trig.extents.any (fun x => decide (s.ring.stagingStart + x.start ≤ n) && decide (n < s.ring.stagingStart + x.start + x.lines))

/-- Distance of a ring line ahead of the write index lies in the zone that the scrubber leaves alone (R219). -/
def Ring.nearWrite (r : Ring) (i : Nat) : Bool := decide ((i + r.size - r.w) % r.size < 65536)

/-- A clear rewrite (R218). -/
def State.clearRewrite (s : State) (h : Hub) (n pass : Nat) : State :=
  if h = s.red.active then
    s.writeFull n (makeLine 0 ({ headOf (s.ring.area n) with init := true, pass := pass }.word) (lineMark n writerClear))
  else s

/-- A finding of the scrubber: counted by area and row of R218, and logged (R218). -/
def State.scrubFound (s : State) (h : Hub) (area row addr : Nat) (log : Bool) : State :=
  let s := s.bump (figMem h 6 (area - 1) row)
  if log then s.post .scrub [(area, 4), (addr, 26)] (some h) else s

/-- The scrubber reads a line (R217 to R219). -/
def State.scrubLine (s : State) (h : Hub) (n : Nat) (errs : List Line) : State :=
  let a := s.ring.area n
  let l := s.lineAt n
  let bad := !lineGood n (l ^^^ errs.getD 0 0)
  let again := fun (s : State) =>
    match goodTry n l errs with
    | some _ => s.bump (figMem h 2 (a.code - 1))
    | none => s.poisonRewrite h n (l ^^^ errs.getD 2 0)
  match a with
  | .ring =>
    if s.ring.nearWrite n then s
    else if bad then
      if s.retained n then again (s.scrubFound h a.code 1 n true)
      else (s.scrubFound h a.code 3 n true).clearRewrite h n ((s.ring.expected n) - 2).toNat
    else if s.ring.begun && (lineHead l).pass != (s.ring.expected n).toNat then s.scrubFound h a.code 2 n false
    else s
  | .directory => if bad then (s.scrubFound h a.code 4 n true).dirFix h n else s
  | .test => s
  | .staging =>
    if !bad then s
    else if s.stagingUsed n then again (s.scrubFound h a.code 6 n true)
    else (s.scrubFound h a.code 7 n true).clearRewrite h n 0
  | .store => if bad then again (s.scrubFound h a.code 5 n true) else s

/-- The line after one in a pass: every line but the check test area (R217). -/
def Ring.scrubNext (r : Ring) (n : Nat) : Nat :=
  let m := if n + 1 = r.testStart then r.stagingStart else n + 1
  if m < r.lineCount then m else 0

def Ring.scrubOf (r : Ring) : Hub → Scrub
  | .a => r.scrubA
  | .b => r.scrubB

def Ring.setScrub (r : Ring) (h : Hub) (x : Scrub) : Ring :=
  match h with
  | .a => { r with scrubA := x }
  | .b => { r with scrubB := x }

/-- The scrubber goes to the next line, with the rate of the hub's band (R31, R217). -/
def State.scrubOn (s : State) (h : Hub) : State :=
  let die := match h with
    | .a => 0
    | .b => 9
  let x := s.ring.scrubOf h
  let next := s.ring.scrubNext x.next
  let rate := numAt (s.table idSeeds) (s.bandPartOff (s.band die) + 0x24) 2
  let x : Scrub :=
    { next := next, passes := if next = 0 then x.passes + 1 else x.passes, since := if next = 0 then s.clock.evals else x.since
      rate := if s.loaded then rate else x.rate }
  { s with ring := s.ring.setScrub h x }

/-- A word of a hub SRAM table fails its parity (R213, R218): it is reloaded from its live copy, which leaves the table as it is; from a
poisoned line the reload completes poisoned. DESIGN CHOICE: word i of the SRAM tables is word i of the live copies, 28 words a line
(log 164). -/
def State.scrubTable (s : State) (h : Hub) (addr : Nat) : State :=
  let s := s.scrubFound h 8 8 addr true
  let l := s.readLine (s.ring.storeStart + liveStart + addr / 28)
  if (lineHead l).poison then (s.bump (figMem h 4)).localErr h .tspoison else s

/-- SCRUB_READ (R217 to R219, R31): the next line of the pass, which waits while its entry is locked, or a word of hub SRAM, a first
error pattern other than zero being its parity failure. -/
def State.scrubRead (s : State) (h : Hub) (target : ScrubTarget) (addr : Nat) (errs : List Line) : State :=
  let bad := errs.getD 0 0 != 0
  match target with
  | .line =>
    if addr ≠ (s.ring.scrubOf h).next ∨ s.ring.isLocked addr then s else (s.scrubLine h addr errs).scrubOn h
  | .sramTable => if bad then s.scrubTable h addr else s
  | .sramWorking =>
    if bad then
      let s := s.scrubFound h 8 9 addr false
      if h = s.red.active then { s with gmem := { s.gmem with tags := Tbl.set false s.gmem.tags addr true } } else s
    else s
  | .sramFree =>
    if bad then
      let s := s.scrubFound h 8 10 addr true
      if h = s.red.active then
        { s with gmem := { s.gmem with
            bytes := putBytes s.gmem.bytes (4 * addr) (List.replicate 4 0), tags := Tbl.set false s.gmem.tags addr false } }
      else s
    else s

/-! ### The split-write window (R224, R225) -/

/-- The window works only in STANDBY (R225). -/
def State.windowOpen (s : State) : Bool := s.node.mode == .standby

/-- The staged line: SWDATA, SWMARK and SWCRC as given (R224). -/
def Window.staged (w : Window) : Line :=
  BitVec.ofNat 1024 (w.data.toNat + w.mark.toNat * 2 ^ 960 + w.crc.toNat * 2 ^ 992)

/-- The window of a hub (R225). -/
def State.win (s : State) : Hub → Window
  | .a => s.window
  | .b => s.windowB

/-- A change of the windows of both hubs: a write takes effect in both at the same step (R225). -/
def State.modWindows (s : State) (f : Hub → Window → Window) : State :=
  { s with window := f .a s.window, windowB := f .b s.windowB }

/-- An operation of the window completes (R225). -/
def Window.completed (w : Window) : Window := { w with done := true, count := w.count + 1 }

/-- GO (R224, R225): the staged line or word of the window is written to the test target, in both hubs. -/
def State.windowGo (s : State) (h : Hub) : State :=
  let w := s.win h
  match w.target with
  | 0 => (s.setLine (s.ring.testStart + w.lineNo.toNat) w.staged).modWindows (fun _ w => w.completed)
  | 1 => s.modWindows (fun _ w => { w with word := w.data.setWidth 32, wordPar := w.swpar }.completed)
  | _ => s

/-- What a hub's window reads of its target, with an error pattern (R224, R225). -/
def State.windowReads (s : State) (w : Window) (err : Line) : Window :=
  match w.target with
  | 0 =>
    let n := s.ring.testStart + w.lineNo.toNat
    let l := s.readLine n ^^^ err
    { w with read := l, err := !lineGood n l, misdir := !lineAtHome n l }.completed
  | 1 =>
    let word := w.word ^^^ err.setWidth 32
    let par := w.wordPar ^^ err.getLsbD 32
    { w with
      read := BitVec.ofNat 1024 (word.toNat + b2n par * 2 ^ 32), err := !parityOk word par, misdir := false }.completed
  | _ => w

/-- RD (R224, R225): the target is read through the checker of each hub into its read-back registers; the error pattern is one of
hub `h`. -/
def State.windowRd (s : State) (h : Hub) (err : Line) : State :=
  s.modWindows (fun k w => s.windowReads w (if k = h then err else 0))

/-! ### Meanings -/

def execMergeWrite (line off : Nat) (bytes : List Byte) (s : State) : Host.Outcome State Fault Refusal :=
  .next (s.mergeWriteRow line off bytes)

def execMergeEntryIdle (line : Nat) (s : State) : Host.Outcome State Fault Refusal :=
  .next (s.when s.live (fun s => s.mergeIdle line))

def execLineWriteDone (line : Nat) (errs : List Line) (s : State) : Host.Outcome State Fault Refusal :=
  .next (s.when s.live (fun s => s.lineWriteDone line errs))

def execTableReloadDone (g : Fin 128) (s : State) : Host.Outcome State Fault Refusal := .next (s.tableReloadDone g)

def execScrubRead (h : Hub) (target : ScrubTarget) (addr : Nat) (errs : List Line) (s : State) :
    Host.Outcome State Fault Refusal :=
  .next (s.when (s.live && s.ring.swept && (s.node.pstate == .active || s.node.pstate == .hush)) (fun s =>
    s.scrubRead h target addr errs))

/-- GO is written in STANDBY (R225). -/
def execGo (h : Hub) (s : State) : Host.Outcome State Fault Refusal :=
  .next (s.when (s.live && s.windowOpen) (fun s => s.windowGo h))

def execRd (h : Hub) (err : Line) (s : State) : Host.Outcome State Fault Refusal :=
  .next (s.when (s.live && s.windowOpen) (fun s => s.windowRd h err))

/-- REFRESH_COMMAND (R31): the next refresh takes the interval of the hub's band, halved in B4. -/
def execRefreshCommand (h : Hub) (s : State) : Host.Outcome State Fault Refusal :=
  .next (s.when s.live (fun s =>
    match h with
    | .a => { s with node := { s.node with refreshA := s.band 0 == 4 } }
    | .b => { s with node := { s.node with refreshB := s.band 9 == 4 } }))

end Sys2Proof.Machine
end

