-- ==== Sys2Proof/Machine/Parts.lean ====
section
/-!
DEFINITION. Fragment parts: their header, the forms in which destinations take them, output staging, and merge sets in HUB mode
(R181, R243 to R247, R252, R282, R320, R323 to R326).
-/

namespace Sys2Proof.Machine

/-! ### Fragment flags (R246) -/

def fTRUNC : Nat := 0
def fLOSS : Nat := 1
def fPOISON : Nat := 2
def fHOLD : Nat := 3
def fPRESTART : Nat := 4
def fMERGED : Nat := 5
def fCOMPRESSED : Nat := 6
def fLAST : Nat := 7
def fCOMPACT : Nat := 8
def fSOFT : Nat := 9
def fSTREAM : Nat := 10

/-- A FLAGS field with one flag set. -/
def fragBit (i : Nat) (b : Bool) : BitVec 16 :=
  if b then BitVec.ofNat 16 (2 ^ i) else 0

/-! ### Ports, by the manifest (R320) -/

/-- PARAM of the claim of a port. -/
def State.portParam (s : State) (p : Nat) : Nat := ((s.holder 0x0A p).map (·.param)).getD 0

def State.portIsUp (s : State) (p : Nat) : Bool := bitsAt (s.portParam p) 0 2 == 1
def State.portIsMerge (s : State) (p : Nat) : Bool := bitsAt (s.portParam p) 0 2 == 2
def State.portPrim (s : State) (p : Nat) : Bool := bitAt (s.portParam p) 2
def State.portTime (s : State) (p : Nat) : Bool := bitAt (s.portParam p) 3

/-- The port word of the lane presets table in force: MTO, MDEST, OWN, PCFG (R303). -/
def State.portWord (s : State) : Nat := numAt (s.table idPresets) 0 8

def mtoOf (w : Nat) : Nat := if bitsAt w 48 16 = 0 then 100 else bitsAt w 48 16
def mdestOf (w : Nat) : Nat := bitsAt w 43 5
def ownOf (w : Nat) : Bool := bitAt w 42
def pcfgOf (w p : Nat) : Nat := bitsAt w (4 * p) 4

/-- A port is in UP: the active hub's copy is (R307, R322). -/
def State.portInUp (s : State) (p : Nat) : Bool := ((s.port p).copy s.red.active).st == .up

/-! ### The header and the forms (R181, R245) -/

/-- The 32-byte header of a part (R245). -/
def partHeader (p : Part) (flags : BitVec 16) (bytes : Nat) : List Byte :=
  leBytes 2 0x5051 ++ leBytes 2 p.node.toNat ++ leBytes 4 p.num.toNat ++ leBytes 4 p.epoch.toNat ++
    leBytes 4 (p.wstart.toNat + p.part * 2 ^ 24) ++ leBytes 4 (p.wlen % 2 ^ 28) ++ leBytes 2 p.conds.toNat ++
    leBytes 2 flags.toNat ++ leBytes 3 p.nrec ++ leBytes 3 bytes ++ leBytes 2 p.losscnt

/-- One move of the format table (R181). -/
def moveField (chr : Nat) (m out : Nat) : Nat :=
  if bitAt m 31 then
    let len := bitsAt m 12 6 + 1
    let dst := bitsAt m 18 6
    out - bitsAt out dst len * 2 ^ dst + bitsAt chr (bitsAt m 24 7) len * 2 ^ dst
  else out

/-- The compact 64-bit form of a record, by the 16 moves of the format table in order (R181). -/
def State.compact (s : State) (r : Rec128) : Nat :=
  (List.range 16).foldl (fun out i => moveField r.toNat (numAt (s.table idFormat) (4 * i) 4) out) 0 % 2 ^ 64

/-- Profile that the delta transform table maps a destination to (R252, R254); none for 0xF and without a table. -/
def State.profileOf (s : State) (d : Nat) : Option Nat :=
  if (s.table idDelta).isEmpty then none
  else
    let v := bitsAt (numAt (s.table idDelta) 0 8) (8 + 4 * d) 4
    if v = 0xF then none else some v

/-- FORM of a profile (R255). -/
def State.profHead (s : State) (p : Nat) : Nat := numAt (s.table idDelta) (16 + 144 * p) 8
def formOf (w : Nat) : Bool := bitAt w 37
def indepOf (w : Nat) : Bool := bitAt w 38
def nspolOf (w : Nat) : Bool := bitAt w 39
def allocOf (w : Nat) : Nat := bitsAt w 40 8
def xtagOf (w : Nat) : Nat := bitsAt w 48 16
def nopsOf (w : Nat) : Nat := bitsAt w 32 5
def iblkOf (w : Nat) : Nat := bitsAt w 0 13

/-- A list of bytes padded with zeros to a multiple of 8. -/
def pad8 (bs : List Byte) : List Byte := bs ++ List.replicate ((8 - bs.length % 8) % 8) 0

/-- The baler frame that a destination takes, when there is one (R252). -/
def State.frameFor (s : State) (p : Part) (d : Nat) : Option (Nat × List Byte) :=
  match s.profileOf d with
  | none => none
  | some q => if (Tbl.get [] p.frames q).isEmpty then none else some (q, Tbl.get [] p.frames q)

/-- A destination still waits for a baler job of the part (R253). -/
def State.partBusy (s : State) (p : Part) (d : Nat) : Bool :=
  match s.profileOf d with
  | none => false
  | some q => bitAt (Tbl.get 0 p.jobs q) d

/-- The bytes of a part as a destination takes it, and its FLAGS: a merged part unchanged, a compressed part as the baler made
it, else CHRs or their compact form (R245, R252, R287, R320, R326). -/
def State.partBytes (s : State) (p : Part) (d : Nat) (compact : Bool) : List Byte × BitVec 16 :=
  let build := fun (flags : BitVec 16) (payload : List Byte) =>
    let pl := pad8 payload
    (partHeader p flags (pl.length / 8) ++ pl, flags)
  match p.raw with
  | some bs => build p.flags bs
  | none =>
    match s.frameFor p d with
    | some (q, fr) =>
      build (p.flags ||| fragBit fCOMPRESSED true ||| fragBit fCOMPACT (formOf (s.profHead q))) fr
    | none =>
      if compact then build (p.flags ||| fragBit fCOMPACT true) (p.recs.flatMap (fun r => leBytes 8 (s.compact r)))
      else build p.flags (p.recs.flatMap (fun r => leBytes 16 r.toNat))

/-! ### Output staging (R243, R248) -/

/-- Bytes of output staging (R200). -/
def stagingBytes : Nat := 249 * 1024 * 1024

/-- Bytes that a part occupies. -/
def Part.size (p : Part) : Nat :=
  32 + (match p.raw with
    | some bs => bs.length
    | none => 16 * p.recs.length) + (p.frames.map (fun f => f.2.length)).sum

/-- Bytes of staging in use: parts, the part in capture, the allocations of baler jobs and the merge area (R243, R266, R323). -/
def State.stagingUse (s : State) : Nat :=
  (s.trig.staging.map Part.size).sum + s.foda.area + (s.balers.map (fun b => ((b.2.job.map (·.alloc)).getD 0))).sum +
    (match s.trig.cap with
     | some c => 16 * c.recs.length
     | none => 0)

/-- Parts not yet handed out: those in staging and the member parts in the merge area (R248, R323). -/
def State.partsHeld (s : State) : Nat :=
  s.trig.staging.length + (s.foda.sets.map (fun x => x.parts.length)).sum

/-- Figure of TRIGGER (R250). -/
def figTrig (row : Nat) (q : Nat := 0) (idx : Nat := whole) : Fig := ⟨0x04, row, q, 0, idx⟩

/-- Data ring of a fragment: that of the lowest-numbered condition in CONDS (R286). -/
def State.ringFor (s : State) (conds : Nat) : Nat :=
  let i := ((List.range 16).find? (fun i => bitAt conds i)).getD 0
  bitsAt s.pcie.select.toNat (4 * i) 4

/-- A part of an entry leaves staging; the entry is freed with its last part (R240). -/
def Trigger.partGone (t : Trigger) (p : Part) : Trigger :=
  if p.merged then t
  else
    let mine := fun (e : TrigEntry) => e.num == p.num && BitVec.ofInt 32 (e.ws / 2 ^ 24) == p.epoch
    let q := t.queue.map (fun e => if mine e then { e with partsLeft := e.partsLeft - 1 } else e)
    { t with queue := q.filter (fun e => !(e.st == .draining && e.lastMade && e.partsLeft == 0)) }

/-- An extent of output staging belongs to a part. -/
def Extent.isOf (x : Extent) (p : Part) : Bool := x.num == p.num && x.epoch == p.epoch && x.part == p.part && x.merged == p.merged

/-- The first place in output staging with room for a number of lines. DESIGN CHOICE: the manual gives parts no lines; the lowest free
lines are taken (log 59). -/
def Trigger.room (t : Trigger) (n : Nat) : Option Nat :=
  let fits := fun (c : Nat) =>
    decide (c + n ≤ stagingLines) && t.extents.all (fun x => decide (c + n ≤ x.start) || decide (x.start + x.lines ≤ c))
  ((0 :: t.extents.map (fun x => x.start + x.lines)).filter fits).min?

/-- Write bytes into output staging from a line on: full lines at once, what does not fill a line through the merge buffer (R203,
R215). -/
def State.writeStaging (s : State) : Nat → Nat → List Byte → State
  | 0, _, _ => s
  | f + 1, n, bs =>
    if bs.isEmpty then s
    else
      let c := bs.take linePay
      let s :=
        if c.length = linePay then s.writeFull n (makeLine (leNat c) (headOf .staging).word (lineMark n writerStaging))
        else s.mergeWrite n 0 c
      s.writeStaging f (n + 1) (bs.drop linePay)

/-- The bytes of a part, or of its frame for a profile, take their lines in output staging (R200, R243, R266). -/
def State.placeBytes (s : State) (p : Part) (frame : Option Nat) (bs : List Byte) : State :=
  let n := (bs.length + linePay - 1) / linePay
  match s.trig.room n with
  | none => s
  | some c =>
    let x : Extent := ⟨p.num, p.epoch, p.part, p.merged, frame, c, n⟩
    let s : State := { s with trig := { s.trig with extents := s.trig.extents ++ [x] } }
    s.writeStaging n (s.ring.stagingStart + c) bs

/-- A part as capture or a merge wrote it: its header and its records, or the bytes of a merged part (R243, R326). -/
def Part.written (p : Part) : List Byte :=
  let payload := match p.raw with
    | some bs => bs
    | none => p.recs.flatMap (fun r => leBytes 16 r.toNat)
  partHeader p p.flags (payload.length / 8) ++ payload

/-- Drop the parts of staging that every destination has taken; their lines are free (R284). -/
def State.pruneStaging (s : State) : State :=
  let gone := s.trig.staging.filter (fun p => p.dests == 0)
  let left := s.trig.staging.filter (fun p => p.dests != 0)
  let t := { s.trig with staging := left, extents := s.trig.extents.filter (fun x => left.any x.isOf) }
  { s with trig := gone.foldl Trigger.partGone t }

/-- A destination has taken the first of its parts (R241, R284). -/
def State.partTaken (s : State) (d : Nat) : State :=
  let rec go : List Part → List Part
    | [] => []
    | p :: l => if p.dests.getLsbD d then { p with dests := p.dests &&& ~~~ BitVec.ofNat 5 (2 ^ d) } :: l else p :: go l
  ({ s with trig := { s.trig with staging := go s.trig.staging } }).pruneStaging

/-- The part that a destination takes next: the first in the order of capture (R241). -/
def State.nextPart (s : State) (d : Nat) : Option Part := s.trig.staging.find? (fun p => p.dests.getLsbD d)

/-- Add a part to output staging; a part without destination leaves at once. -/
def State.stage (s : State) (p : Part) : State :=
  let s := (({ s with trig := { s.trig with staging := s.trig.staging ++ [p] } }).placeBytes p none p.written).pruneStaging
  s.peak (figTrig 4 1) s.stagingUse

/-! ### Merge sets (R323 to R326) -/

/-- Figure of FODAFORT (R327). -/
def figFoda (row : Nat) (q : Nat := 0) (idx : Nat := whole) : Fig := ⟨0x07, row, q, 0, idx⟩

/-- Fields of a part header as received. -/
def hdrTrig (b : List Byte) : BitVec 32 := BitVec.ofNat 32 (leAt b 4 4)
def hdrEpoch (b : List Byte) : BitVec 32 := BitVec.ofNat 32 (leAt b 8 4)
def hdrWstart (b : List Byte) : Nat := leAt b 12 3
def hdrPart (b : List Byte) : Nat := leAt b 15 1
def hdrWlen (b : List Byte) : Nat := leAt b 16 4 % 2 ^ 28
def hdrConds (b : List Byte) : Nat := leAt b 20 2
def hdrFlags (b : List Byte) : Nat := leAt b 22 2
def hdrRecords (b : List Byte) : Nat := leAt b 24 3
def hdrLoss (b : List Byte) : Nat := leAt b 30 2

/-- Bytes of a part with its header. -/
def memberHeader (node : Nat) (trigno epoch : BitVec 32) (wstart : Nat) : List Byte :=
  leBytes 2 0x5051 ++ leBytes 2 node ++ leBytes 4 trigno.toNat ++ leBytes 4 epoch.toNat ++ leBytes 4 wstart ++
    leBytes 4 0 ++ leBytes 2 0 ++ leBytes 2 (2 ^ fTRUNC + 2 ^ fLOSS + 2 ^ fLAST) ++ leBytes 6 0 ++ leBytes 2 0xFFFF

/-- The parts of one member in order, a stand-in for each damaged one and for a missing LAST (R326). -/
def State.memberParts (s : State) (x : MergeSet) (m wstart : Nat) : List (List Byte) :=
  let node := if m = 0 then s.node.nodeId.toNat else ((s.port (m - 1)).copy s.red.active).partner.toNat
  let stand := memberHeader node x.trigno x.epoch wstart
  let ps := x.parts.filter (fun p => p.member == m)
  let bs := ps.map (fun p => if p.gap then stand else p.bytes)
  if ps.any (fun p => bitAt (hdrFlags p.bytes) fLAST) then bs else bs ++ [stand]

/-- A merged part (R326). -/
def mergedPart (node : BitVec 16) (x : MergeSet) (wstart wlen conds ring dests : Nat) (n total : Nat) (b : List Byte) : Part :=
  let excess := n = 255 ∧ 256 < total
  let last := n + 1 = min total 256
  let fl := BitVec.ofNat 16 (hdrFlags b % 16) ||| fragBit fMERGED true ||| fragBit fLAST last |||
    fragBit fTRUNC excess ||| fragBit fLOSS excess
  { num := x.trigno, epoch := x.epoch, wstart := BitVec.ofNat 24 wstart, part := n, wlen := wlen, conds := BitVec.ofNat 16 conds
    flags := fl, losscnt := if excess then 0xFFFF else hdrLoss b, recs := [], node := node, raw := some (pad8 b)
    nrec := hdrRecords b, dests := BitVec.ofNat 5 dests, jobs := [], frames := [], ring := ring, merged := true }

/-- PAUSE on the MERGE-IN ports when the merge area reaches 48 MiB, RESUME when it falls below 32 MiB (R319). -/
def State.areaMarks (s : State) : State :=
  (List.range 4).foldl (fun s p =>
    let x := s.port p
    if !s.portIsMerge p then s
    else if 48 * 1024 * 1024 ≤ s.foda.area && !x.pauseOut then (s.setPort p { x with pauseOut := true }).emit (.ctrl none p 2 0)
    else if s.foda.area < 32 * 1024 * 1024 && x.pauseOut then (s.setPort p { x with pauseOut := false }).emit (.ctrl none p 3 0)
    else s) s

/-- Close a merge set and emit the merged fragment to MDEST (R325, R326). -/
def State.closeSet (s : State) (x : MergeSet) (full : Bool) : State :=
  let first := ((x.members.filterMap (fun m => x.parts.find? (fun p => p.member == m))).head?).map (·.bytes)
  let b := first.getD []
  let conds := x.parts.foldl (fun c p => c ||| hdrConds p.bytes) 0
  let parts := x.members.flatMap (fun m => s.memberParts x m (hdrWstart b))
  let stands := (x.members.map (fun m =>
    (s.memberParts x m (hdrWstart b)).length - (x.parts.filter (fun p => p.member == m && !p.gap)).length)).sum
  let area := (x.parts.filter (fun p => p.member != 0)).map (fun p => p.bytes.length)
  let made := (parts.take 256).zipIdx.map (fun p =>
    mergedPart s.node.nodeId x (hdrWstart b) (hdrWlen b) conds (s.ringFor conds) (mdestOf s.portWord) p.2 parts.length p.1)
  let s := { s with foda := { s.foda with
    sets := s.foda.sets.filter (fun y => !(y.trigno == x.trigno && y.epoch == x.epoch))
    closed := (s.foda.closed ++ [(x.trigno, x.epoch)]).drop (s.foda.closed.length + 1 - 1024)
    area := s.foda.area - area.sum } }
  let s := (s.bump (figFoda 8 (if full then 0 else 1))).bump (figFoda 8 2) stands
  (made.foldl State.stage s).areaMarks

/-- Every member's LAST part is present (R325). -/
def MergeSet.complete (x : MergeSet) : Bool :=
  x.members.all (fun m => x.parts.any (fun p => p.member == m && bitAt (hdrFlags p.bytes) fLAST))

/-- Members of a set that opens: the own node under OWN, and each MERGE-IN port in UP (R323). -/
def State.setMembers (s : State) : List Nat :=
  (if ownOf s.portWord then [0] else []) ++
    ((List.range 4).filter (fun p => s.portIsMerge p && s.portInUp p)).map (· + 1)

/-- A complete part joins its set, opens one, or is late (R323 to R325). -/
def State.mergeAdd (s : State) (m : Nat) (bytes : List Byte) (gap : Bool) : State :=
  let t := hdrTrig bytes
  let e := hdrEpoch bytes
  if s.foda.closed.contains (t, e) then s.bump (figFoda 8 3)
  else
    let known := s.foda.sets.any (fun x => x.trigno == t && x.epoch == e)
    let s : State :=
      if known then s
      else
        let s : State := if 64 ≤ s.foda.sets.length then
            match s.foda.sets with
            | old :: _ => s.closeSet old false
            | [] => s
          else s
        { s with foda := { s.foda with sets := s.foda.sets ++ [⟨t, e, s.setMembers, []⟩] } }
    let s : State := { s with foda := { s.foda with
      sets := s.foda.sets.map (fun x =>
        if x.trigno = t ∧ x.epoch = e then { x with parts := x.parts ++ [⟨m, hdrPart bytes, bytes, gap⟩] } else x)
      area := if m = 0 then s.foda.area else s.foda.area + bytes.length } }
    let s := (s.peak (figFoda 8 4) s.foda.area).areaMarks
    match s.foda.sets.find? (fun x => x.trigno == t && x.epoch == e) with
    | some x => if x.complete then s.closeSet x true else s
    | none => s

end Sys2Proof.Machine
end

