-- ==== Sys2Proof/Machine/Trigger.lean ====
section
/-!
DEFINITION. Triggering and capture: the TCMD pairs and the decode machine, conditions and their windows, the trigger queue,
capture into parts, and BUSY_N (R178 to R181, R228 to R249).
-/

namespace Sys2Proof.Machine

/-! ### The decode table (R178) -/

def State.dec (s : State) (off n : Nat) : Nat := numAt (s.table idDecode) off n

/-- UNIT is RAW; NSTATES; NCOND. -/
def State.decRaw (s : State) : Bool := bitAt (s.dec 0 4) 0
def State.decStates (s : State) : Nat := bitsAt (s.dec 0 4) 8 8
def State.decConds (s : State) : Nat := bitsAt (s.dec 0 4) 16 5

/-- WIDTH of a field definition. -/
def State.decWidth (s : State) (f : Nat) : Nat := bitsAt (s.dec (16 + 4 * f) 4) 0 7

def State.decClim (s : State) (st : Nat) : Nat := bitsAt (s.dec (80 + 136 * st) 8) 0 8
def State.decTrans (s : State) (st i : Nat) : Nat := s.dec (88 + 136 * st + 8 * i) 8

/-- Word k of a condition entry (R179). -/
def State.condWord (s : State) (c k : Nat) : Nat := s.dec (80 + 136 * s.decStates + 40 * c + 8 * k) 8

def condEn (w3 : Nat) : Bool := bitAt w3 63
def condRange (w3 : Nat) : Bool := bitAt w3 62
def condField (w3 : Nat) : Nat := bitsAt w3 58 4
def condFtt (w3 : Nat) : Nat := bitsAt w3 54 4
def condComp (w3 : Nat) : Bool := bitAt w3 53
def condOut (w3 : Nat) : Nat := bitsAt w3 48 5
def condPre (w4 : Nat) : Nat := bitsAt w4 28 28
def condPost (w4 : Nat) : Nat := bitsAt w4 0 28

/-! ### The TCMD pairs (R228, R230) -/

def Tcmd.pair (t : Tcmd) : Fin 2 → Pair
  | 0 => t.pair0
  | 1 => t.pair1

def Tcmd.setPair (t : Tcmd) (i : Fin 2) (p : Pair) : Tcmd :=
  match i with
  | 0 => { t with pair0 := p }
  | 1 => { t with pair1 := p }

def State.setTcmd (s : State) (t : Tcmd) : State := { s with trig := { s.trig with tcmd := t } }

/-- The decode machine restarts in state 0 with every field and the counter at zero (R230). -/
def Tcmd.restart (t : Tcmd) : Tcmd := { t with state := 0, cnt := 0, fields := [], slip := false, bits := [], errs := 0 }

/-- The hub switches to a pair (R230). -/
def State.tcmdUse (s : State) (i : Fin 2) : State :=
  ((s.setTcmd { s.trig.tcmd.restart with inUse := some i }).bump (figTrig 5 2)).post .tcmdsw []

/-- Neither pair is locked (R230). -/
def State.tcmdLost (s : State) : State :=
  (s.setTcmd { s.trig.tcmd.restart with inUse := none }).post .tcmdlost []

/-- Units with the error flag among the last 64 (R230). -/
def Tcmd.errCount (t : Tcmd) : Nat := ((List.range 64).filter (fun i => t.errs.getLsbD i)).length

/-- TCMDSW (R230): a pair loses lock, or TCMD shows 16 errors in 64 units in BYTE unit. -/
def State.tcmdSwitch (s : State) (i : Fin 2) (unlocked : Bool) : State :=
  let s : State := if unlocked then s.setTcmd (s.trig.tcmd.setPair i { s.trig.tcmd.pair i with locked := false }) else s
  let t := s.trig.tcmd
  if t.inUse != some i then s
  else
    match i with
    | 0 =>
      if t.pair1.locked && (unlocked || (!s.decRaw && decide (16 ≤ t.errCount))) then s.tcmdUse 1
      else if unlocked then s.tcmdLost
      else s
    | 1 =>
      if !unlocked then s
      else if t.pair0.locked then s.tcmdUse 0
      else s.tcmdLost

/-- TCMD_LOCK (R230): a pair gains lock again; with no pair in use it is taken. -/
def State.tcmdLock (s : State) (i : Fin 2) : State :=
  let s := s.setTcmd (s.trig.tcmd.setPair i ⟨true, false⟩)
  match s.trig.tcmd.inUse with
  | none => s.tcmdUse i
  | some _ => s

/-- TCMDNOLOCK (R228): the pair is reported and left unused. -/
def State.tcmdNoLockRow (s : State) (i : Fin 2) : State :=
  (s.setTcmd (s.trig.tcmd.setPair i ⟨false, true⟩)).post .tcmdnolock [(i.val, 1)]

/-! ### The decode machine (R179) -/

def trV (t : Nat) : Bool := bitAt t 63
def trMask (t : Nat) : Nat := bitsAt t 53 10
def trValue (t : Nat) : Nat := bitsAt t 43 10
def trNext (t : Nat) : Nat := bitsAt t 37 6
def trF (t : Nat) : Nat := bitsAt t 33 4
def trPos (t : Nat) : Nat := bitsAt t 29 4
def trLen (t : Nat) : Nat := bitsAt t 25 4
def trClr (t : Nat) : Bool := bitAt t 24
def trEmit (t : Nat) : Bool := bitAt t 23
def trCeq (t : Nat) : Bool := bitAt t 22
def trCrst (t : Nat) : Bool := bitAt t 21
def trSlip (t : Nat) : Bool := bitAt t 20

/-- The first transition that a unit matches (R179). -/
def State.tcmdMatch (s : State) (m : Tcmd) (u : Nat) : Option Nat :=
  ((List.range 16).map (s.decTrans m.state)).find? (fun t =>
    trV t && (u &&& trMask t) == trValue t && (!trCeq t || m.cnt == s.decClim m.state))

/-- The machine takes a transition (R179). -/
def State.tcmdTake (s : State) (m : Tcmd) (t u : Nat) : Tcmd :=
  let f := trF t
  let v := Tbl.get 0 m.fields f
  let v := if trClr t then 0 else v
  let v := if 0 < trLen t then (v * 2 ^ trLen t + bitsAt u (trPos t) (trLen t)) % 2 ^ s.decWidth f else v
  { m with
    fields := if trClr t || decide (0 < trLen t) then Tbl.set 0 m.fields f v else m.fields
    cnt := if trCrst t then 0 else min (m.cnt + 1) 255, slip := trSlip t, state := trNext t }

/-- The machine of each hub takes a unit whose first bit arrived at a full coarse time; an instance goes to the TCMD gate (R15,
R179). -/
def State.tcmdStep (s : State) (u at_ : Nat) : State :=
  let m := { s.trig.tcmd with slip := false }
  match s.tcmdMatch m u with
  | none => (s.setTcmd { m with state := 0, cnt := 0 }).bump (figTrig 5 3)
  | some t =>
    let m' := s.tcmdTake m t u
    let s := s.setTcmd m'
    if trEmit t then
      let x : Item := .inst (trF t) (Tbl.get 0 m'.fields (trF t)) at_ m'.fields
      (s.gateStamp .a .tcmd x).gateStamp .b .tcmd x
    else s

/-- The ten bits of a symbol, the first received in bit 9 (R179). -/
def symbolBits (w : BitVec 10) : List Bool := (List.range 10).map (fun i => w.getLsbD (9 - i))

/-- The number that bits spell, the first the highest. -/
def bitsNum (l : List Bool) : Nat := l.foldl (fun n b => 2 * n + b2n b) 0

/-- RAW unit (R179): ten received bits follow those not yet taken, a slip skips the oldest, and ten bits make a unit. -/
def Tcmd.align (m : Tcmd) (w : BitVec 10) : List Bool :=
  let l := m.bits ++ symbolBits w
  if m.slip then l.drop 1 else l

/-- TCMD_UNIT (R179, R229): a symbol clock of the pair in use. In BYTE unit the operand is the decoded symbol, data, K and error
flag; in RAW unit it is the ten bits received, which go through the unit alignment, one bit a tick. -/
def State.tcmdUnit (s : State) (unit : BitVec 10) (tick : BitVec 12) : State :=
  let m := s.trig.tcmd
  let used := match m.inUse with
    | some i => (m.pair i).locked
    | none => false
  if !s.awake || !used || (s.table idDecode).isEmpty then s
  else if s.decRaw then
    let l := m.align unit
    let m := { m with errs := m.errs <<< 1, slip := false }
    if l.length < 10 then s.setTcmd { m with bits := l }
    else (s.setTcmd { m with bits := l.drop 10 }).tcmdStep (bitsNum (l.take 10)) (s.coarse tick + 10 - l.length)
  else
    (s.setTcmd { m with errs := (m.errs <<< 1) ||| (if unit.getLsbD 9 then 1 else 0) }).tcmdStep unit.toNat (s.coarse tick)

/-! ### Conditions and entries (R231 to R240) -/

/-- Reference time of a condition's field-to-time entry; none when the entry is not enabled (R180, R232). -/
def State.refTime (s : State) (ftt arrival : Nat) (fields : Tbl Nat) : Option Int :=
  let w := numAt (s.table idFtt) (16 * ftt) 8
  let off := signed 64 (numAt (s.table idFtt) (16 * ftt + 8) 8)
  if !bitAt w 63 then none
  else if bitAt w 62 then
    some (((arrival / 2 ^ 24 * 2 ^ 24 : Nat) : Int) + ((Tbl.get 0 fields (bitsAt w 58 4) * bitsAt w 0 32) >>> 16 : Nat) + off)
  else some ((arrival : Int) + off)

/-- A condition matches a value (R231). -/
def State.condMatches (s : State) (c v : Nat) : Bool :=
  let mask := s.condWord c 0
  let lo := s.condWord c 1
  if condRange (s.condWord c 3) then decide (lo ≤ v &&& mask) && decide (v &&& mask ≤ s.condWord c 2)
  else (v &&& mask) == lo

/-- Modes in which conditions are tested and TRIG SUB 0 and SUB 2 accepted (R186, R439). -/
def modeConditions (m : Mode) : Bool := m == .triggered || m == .dual || m == .hub

/-- A destination can take a fragment (R244, R320, R324). -/
def State.destsOf (s : State) (out : Nat) : Nat :=
  (if bitAt out 0 then 1 else 0) +
    ((List.range 4).filter (fun p => bitAt out (p + 1) && s.portIsUp p)).foldl (fun a p => a + 2 ^ (p + 1)) 0

/-- Own fragments go to their merge set (R324). -/
def State.ownMerges (s : State) : Bool := s.node.mode == .hub && ownOf s.portWord

/-- Entries of the trigger queue (R240). -/
def queueCap : Nat := 64

/-- The margin of an entry: that in force while it waits, and from its close on that in force then (R236). -/
def State.marginFor (s : State) (e : TrigEntry) : Nat := if e.st == .waiting then s.trig.margin else e.margin

/-- Last slice of an entry's range (R236). -/
def State.lastSlice (s : State) (e : TrigEntry) : Int := (e.we - 1 + s.marginFor e) / 4096

/-- Close a waiting entry, or free it when no destination can take its fragment (R237, R244). -/
def State.closeEntry (s : State) (e : TrigEntry) (trunc : Bool) : State :=
  if s.destsOf e.outs.toNat = 0 ∧ s.ownMerges = false then
    ({ s with trig := { s.trig with queue := s.trig.queue.erase e } }).bump (figTrig 3 3)
  else
    { s with trig := { s.trig with
        queue := s.trig.queue.map (fun x => 
          if x = e then { e with st := .closed, trunc := e.trunc || trunc, margin := s.trig.margin } else x) } }

/-- Windows that are complete close (R237): the last slice of the range is released, or acquisition has stopped before it. -/
def State.closeWindows (s : State) : State :=
  (s.trig.queue.filter (fun e => e.st == .waiting)).foldl (fun s e =>
    let released := match s.ring.newest with
      | some n => decide (s.lastSlice e ≤ (n : Int))
      | none => false
    if e.prestart then s.closeEntry e false
    else if released then s.closeEntry e false
    else if !s.core.running then s.closeEntry e true
    else s) s

/-- Make a queue entry for a window (R235, R240, R244); with all 64 in use none is made, the number is taken and the loss
counted. -/
def State.makeEntry (s : State) (ws we : Int) (outs : Nat) (comp : Bool) (conds : Nat) (soft stream : Bool) : State :=
  let num := s.trig.nextNum
  let s : State := { s with trig := { s.trig with nextNum := num + 1 } }
  if queueCap ≤ s.trig.queue.length then s.bump (figTrig 2 1)
  else
    let e : TrigEntry :=
      { num := num, st := .waiting, conds := BitVec.ofNat 16 conds, ws := ws, we := we, outs := BitVec.ofNat 5 outs, comp := comp
        soft := soft, stream := stream, prestart := decide (ws < (s.core.startAt : Int)) || !s.ring.begun, trunc := false
        margin := s.trig.margin, partsLeft := 0, lastMade := false }
    let s : State := { s with trig := { s.trig with queue := s.trig.queue ++ [e] } }
    ((s.bump (figTrig 2 0)).peak (figTrig 4 0) s.trig.queue.length).closeWindows

/-- The condition enable mask for an instance stamped in a step (R231). -/
def Trigger.maskFor (t : Trigger) (stamp : Nat) : BitVec 16 :=
  ((t.oldMasks.find? (fun p => decide (stamp < p.1))).map (·.2)).getD t.mask

/-- The conditions that an instance matches, with their windows; matches whose field-to-time entry is off are counted (R231,
R232). -/
def State.matchList (s : State) (field v arrival : Nat) (fields : Tbl Nat) (stamp : Nat) : List (Nat × Int × Int) × State :=
  (List.range s.decConds).foldl (fun p c =>
    let s := p.2
    let w3 := s.condWord c 3
    let w4 := s.condWord c 4
    if condEn w3 && condField w3 == field && (s.trig.maskFor stamp).getLsbD c && s.condMatches c v then
      let s := s.bump (figTrig 1 0 c)
      match s.refTime (condFtt w3) arrival fields with
      | none => (p.1, s.bump (figTrig 2 2))
      | some t => (p.1 ++ [(c, t - condPre w4, t + condPost w4)], s)
    else (p.1, s)) ([], s)

/-- An instance is tested against the conditions; all that match give one entry (R231, R235). -/
def State.testInstance (s : State) (field v arrival : Nat) (fields : Tbl Nat) (stamp : Nat) : State :=
  if !modeConditions s.node.mode then s
  else
    let r := s.matchList field v arrival fields stamp
    match r.1 with
    | [] => r.2
    | (c0, ws0, we0) :: rest =>
      let ws := rest.foldl (fun a x => min a x.2.1) ws0
      let we := rest.foldl (fun a x => max a x.2.2) we0
      let cs := c0 :: rest.map (·.1)
      let outs := cs.foldl (fun a c => a ||| condOut (s.condWord c 3)) 0
      r.2.makeEntry ws we outs (condComp (s.condWord c0 3)) (cs.foldl (fun a c => a + 2 ^ c) 0) false false

/-- Instances in order of their step, in a step of arrival tick, then of field number (R233); each is field, value, arrival,
fields and stamp. -/
def State.testInstances (s : State) (l : List (Nat × Nat × Nat × Tbl Nat × Nat)) : State :=
  let before := fun (a b : Nat × Nat × Nat × Tbl Nat × Nat) =>
    decide (a.2.2.2.2 < b.2.2.2.2) || (a.2.2.2.2 == b.2.2.2.2 &&
      (decide (a.2.2.1 < b.2.2.1) || (a.2.2.1 == b.2.2.1 && decide (a.1 ≤ b.1))))
  (l.mergeSort before).foldl (fun s x => s.testInstance x.1 x.2.1 x.2.2.1 x.2.2.2.1 x.2.2.2.2) s

/-- The margin M (R236) from the skew and curve tables: S the largest absolute skew entry, Y the largest walk knot in fine
ticks. Knots are entries 0 to 5 of a channel. -/
def State.marginOf (s : State) : Nat :=
  let big := (List.range 4096).foldl (fun a ch => max a (signed 32 (numAt (s.table idSkew) (4 * ch) 4)).natAbs) 0
  let y := (List.range 4096).foldl (fun a ch =>
    (List.range 6).foldl (fun a k =>
      max a (((signed 32 (numAt (s.table idCurve) ((ch * 8 + k) * 16 + 4) 4)).natAbs + 8) >>> 4)) a) 0
  ((big + y + 511) >>> 9) + 1

/-- Stream length N: PRE + POST of condition 0 (R239). -/
def State.streamLen (s : State) : Nat :=
  if (s.table idDecode).isEmpty then 0 else condPre (s.condWord 0 4) + condPost (s.condWord 0 4)

/-- STREAM_ENTRY (R239): in STREAMING, the next window of N ticks makes an entry. DEDUCED: a run that began in another mode is carried
into STREAMING with its first window at the start of acquisition all the same, so that every record of the run lies in one window
(log 167). -/
def State.streamEntry (s : State) : State :=
  match s.trig.streamAt with
  | none => s
  | some ws =>
    let n := s.streamLen
    if s.awake && s.node.mode == .streaming && s.core.running && decide (0 < n) && decide (ws < (s.coarse0 + 4096 : Nat)) then
      let w3 := s.condWord 0 3
      let s : State := { s with trig := { s.trig with streamAt := some (ws + n) } }
      s.makeEntry ws (ws + n) (condOut w3) (condComp w3) 1 false true
    else s

/-! ### Capture (R241 to R247) -/

/-- Records of a full part (R243). -/
def partRecords : Nat := 4194304

/-- The entry in capture. -/
def State.capEntry (s : State) : Option TrigEntry :=
  s.trig.queue.find? (fun e => e.st == .capturing)

/-- The raw span of a slice overlaps a window (R236). DEDUCED: an empty window overlaps the slice that holds its W_s, whose marker its
fragment holds (R234, log 166). -/
def spanOverlaps (q : Nat) (e : TrigEntry) : Bool :=
  decide ((q * 4096 : Nat) < e.we ∨ (e.ws = e.we ∧ (q * 4096 : Nat) ≤ e.ws)) && decide (e.ws < ((q + 1) * 4096 : Nat))

/-- Capture reads a slice (R236). -/
def needsSlice (q : Nat) (d : DirEntry) (e : TrigEntry) : Bool :=
  let base : Int := (q / 4096 * 2 ^ 33 : Nat)
  spanOverlaps q e ||
    (!d.nohit && decide (base + d.tmin < e.we * 512) && decide (e.ws * 512 ≤ base + d.tmax))

/-- A CHR belongs to the window (R234). -/
def inWindow (q : Nat) (e : TrigEntry) (r : Rec128) : Bool :=
  decide (e.ws * 512 ≤ chrTime q r) && decide (chrTime q r < e.we * 512)

/-- What capture copies of a slice (R242). -/
def copySlice (q : Nat) (e : TrigEntry) (rs : List Rec128) : List Rec128 :=
  rs.filter (fun r => chrKind r == 1 && inWindow q e r) ++
    rs.filter (fun r => spanOverlaps q e && (chrKind r == 4 || chrKind r == 0xE)) ++ rs.filter (fun r => chrKind r == 3)

/-- A finding of capture after its records and `ahead` more of the slice in front. -/
def Capture.note (c : Capture) (ahead : Nat) (flags : BitVec 16) (loss : Nat) (unknown : Bool) : Capture :=
  { c with notes := c.notes ++ [⟨c.recs.length + ahead, flags, loss, unknown⟩] }

/-- Pass over the slices in front that need no line: outside the window, gone, skipped, or known only as a poisoned entry (R208,
R212, R236, R244). -/
def State.capSettle (s : State) (e : TrigEntry) : Nat → Capture → Capture
  | 0, c => c
  | n + 1, c =>
    match c.slices with
    | [] => c
    | q :: rest =>
      let skip := { c with slices := rest, line := 0, got := [] }
      match s.lookup q with
      | .prestart | .notYet => s.capSettle e n skip
      | .gone =>
        s.capSettle e n (skip.note 0 (fragBit fTRUNC true ||| fragBit fLOSS true) 0 true)
      | .present d =>
        if !needsSlice q d e then s.capSettle e n skip
        else if d.nlines = 0 then
          if d.gap then s.capSettle e n skip
          else
            let loss : Rec128 := BitVec.ofNat 128 (0x4 * 2 ^ 124 + 0xD * 2 ^ 120 + q % 4096 * 4096 * 2 ^ 96 + 0xFFFF * 2 ^ 80)
            s.capSettle e n { skip.note 0 (fragBit fPOISON true) 0 false with recs := c.recs ++ copySlice q e [loss] }
        else c

def State.setCap (s : State) (c : Option Capture) : State := { s with trig := { s.trig with cap := c } }

/-- Full slices of an entry's range (R236). -/
def State.rangeOf (s : State) (e : TrigEntry) : List Nat :=
  let lo := ((e.ws - s.marginFor e) / 4096).toNat
  let hi := (s.lastSlice e).toNat
  (List.range (hi + 1 - lo)).map (· + lo)

/-- CAPTURE_START (R241, R244): the capture unit takes the closed entry with the lowest number. -/
def State.captureStart (s : State) : State :=
  let closed := s.trig.queue.filter (fun e => e.st == .closed)
  match closed with
  | [] => s
  | e0 :: rest =>
    if !s.awake || s.trig.cap.isSome then s
    else
      let e := rest.foldl (fun b e => if laterMod 32 b.num.toNat e.num.toNat then e else b) e0
      let s : State := { s with trig := { s.trig with
        queue := s.trig.queue.map (fun x => if x = e then { e with st := .capturing } else x) } }
      let slices := if e.prestart then [] else s.rangeOf e
      let c : Capture :=
        { num := e.num, slices := slices, line := 0, got := [], recs := [], part := 0, notes := [], truncated := false
          ring := 0 }
      s.setCap (some (s.capSettle e (slices.length + 1) c))

/-- A line fetched for capture (R208, R211, R222, R242, R243): its records, its count as overwritten when it carries a later pass, or
nothing when it is empty; with its last line the slice is copied. Capture waits while output staging lacks room. DESIGN CHOICE: a
finding in a slice that is cut between parts stands after the hits copied of the lines before it (log 165). -/
def State.captureLine (s : State) (n : Nat) : State :=
  match s.trig.cap, s.capEntry with
  | some c, some e =>
    match c.slices with
    | [] => s
    | q :: rest =>
      match s.lookup q with
      | .present d =>
        let x := s.ring.lineOf d c.line
        if x.1 ≠ n ∨ stagingBytes < s.stagingUse + 16 * (c.got.length + 7) then s
        else
          let l := s.readLine n
          let h := lineHead l
          let exp := d.lineHead q x.2 c.line
          let own := h.fits exp
          let lost := !own && !h.init && laterMod 16 h.pass x.2
          let ahead := (c.got.filter (fun r => chrKind r == 1 && inWindow q e r)).length
          let c := { c with line := c.line + 1 }
          let s : State := if lost then s.bump (figMemBoth 9) else s
          let c :=
            if own then
              let c := { c with got := c.got ++ lineRecords l }
              if h.poison then c.note ahead (fragBit fPOISON true) 0 false else c
            else if lost then c.note ahead (fragBit fTRUNC true ||| fragBit fLOSS true) exp.nrec false
            else c
          if c.line < d.nlines then s.setCap (some c)
          else
            let c := { c with slices := rest, line := 0, got := [], recs := c.recs ++ copySlice q e c.got }
            s.setCap (some (s.capSettle e (rest.length + 1) c))
      | _ => s.setCap (some (s.capSettle e (rest.length + 2) c))
  | _, _ => s

/-- LINE_FETCH (R208, R210 to R214, R242); a fetch of a line whose entry is being written waits (R216). -/
def State.lineFetch (s : State) (h : Hub) (n : Nat) (errs : List Line) : State :=
  s.when (s.live && s.ring.swept && decide (n < s.ring.lineCount) && !s.ring.isLocked n) (fun s =>
    let s := s.checkedFetch h n errs
    if h = s.red.active then s.captureLine n else s)

/-- LOSSCNT of the records of a part with the overwritten lines met (R247). -/
def lossCount (rs : List Rec128) (lost : Nat) (unknown : Bool) : Nat :=
  let cs := (rs.filter (fun r => chrKind r == 4)).map (fun r => bitsAt r.toNat 80 16)
  if unknown || cs.contains 0xFFFF then 0xFFFF else min 0xFFFF (cs.sum + lost)

/-- Flags 0 to 3 that the records of a part call for (R246). -/
def recordFlags (rs : List Rec128) (loss : Nat) : BitVec 16 :=
  let m := rs.filter (fun r => chrKind r == 3)
  fragBit fLOSS (decide (0 < loss) || m.any (fun r => bitsAt r.toNat 32 16 != 0 || bitsAt r.toNat 72 8 != 0)) |||
    fragBit fPOISON (rs.any (fun r => (chrKind r == 1 && bitAt r.toNat 39) || chrKind r == 0xE)) |||
    fragBit fHOLD (m.any (fun r => bitAt r.toNat 15))

/-- Any baler that a program or a command claims (R251, R253). -/
def State.anyBaler (s : State) : Bool := (List.range 4).any s.balerClaimed

/-- Figure of BALERS (R271). DESIGN CHOICE: the parts that go out uncompressed for want of a claimed baler, which R253 counts and R271 does
not list, are row 6 (log 168). -/
def figBaler (row b : Nat) (q : Nat := 0) : Fig := ⟨0x05, row, q, 0, b⟩

/-- A part is handed to its destinations: to the merge set, or to staging with one job for each distinct profile (R252, R253,
R324). -/
def State.handOver (s : State) (e : TrigEntry) (p : Part) : State :=
  let last := p.flags.getLsbD fLAST
  let mine := fun (x : TrigEntry) => x.num == e.num && x.st == .capturing
  let upd : State → (TrigEntry → TrigEntry) → State := fun s g =>
    { s with trig := { s.trig with queue := s.trig.queue.map (fun x => if mine x then g x else x) } }
  let s : State := if last then (s.setCap none).bump (figTrig 3 0) else s
  if s.ownMerges then
    let s : State := s.mergeAdd 0 (partHeader p p.flags (2 * p.recs.length) ++ p.recs.flatMap (fun r => leBytes 16 r.toNat)) false
    if last then { s with trig := { s.trig with queue := s.trig.queue.filter (fun x => !mine x) } } else s
  else
    let dests := s.destsOf e.outs.toNat
    let ds := (List.range 5).filter (fun d => bitAt dests d)
    let want := e.comp && !p.recs.isEmpty && ds.any (fun d => (s.profileOf d).isSome)
    let s := if want && !s.anyBaler then s.bump (figBaler 6 whole) else s
    let jobs : Tbl Nat :=
      if want && s.anyBaler then
        ds.foldl (fun j d =>
          match s.profileOf d with
          | some q => Tbl.set 0 j q (Tbl.get 0 j q + 2 ^ d)
          | none => j) []
      else []
    let s : State := { s with jobs := s.jobs ++ jobs.map (fun j =>
      { num := p.num, part := p.part, prof := j.1, recs := p.recs, syncs := [], larger := false, stored := false, flushes := []
        alloc := 0 }) }
    let s := upd s (fun x => { x with
      partsLeft := x.partsLeft + 1, lastMade := last, st := if last then .draining else .capturing })
    s.stage { p with dests := BitVec.ofNat 5 dests, jobs := jobs }

/-- What the findings of capture add to a part of its first `n` records; the last part takes them all (R244, R246, R247). -/
def Capture.found (c : Capture) (n : Nat) (last : Bool) : List CapNote := c.notes.filter (fun x => last || decide (x.at_ < n))

/-- A part of the entry in capture, of the records given and what was found among them; `last` its LAST, `trunc` a reason of its own
for TRUNC, which the last part of a window closed early has too (R237, R246, R247). -/
def State.makePart (s : State) (c : Capture) (e : TrigEntry) (rs : List Rec128) (found : List CapNote) (last trunc : Bool) : Part :=
  let loss := lossCount rs (found.map (·.loss)).sum (found.any (·.unknown))
  let fl := (found.foldl (fun f x => f ||| x.flags) 0) ||| recordFlags rs loss ||| fragBit fLAST last |||
    fragBit fTRUNC (trunc || (last && e.trunc)) ||| fragBit fPRESTART e.prestart ||| fragBit fSOFT e.soft ||| fragBit fSTREAM e.stream
  { num := e.num, epoch := BitVec.ofInt 32 (e.ws / 2 ^ 24), wstart := BitVec.ofInt 24 e.ws, part := c.part
    wlen := (e.we - e.ws).toNat, conds := e.conds, flags := fl, losscnt := loss, recs := rs, node := s.node.nodeId, raw := none
    nrec := rs.length, dests := 0, jobs := [], frames := []
    ring := if c.part = 0 then s.ringFor e.conds.toNat else c.ring, merged := false }

/-- Count a fragment's TRUNC, in whichever part, and PRESTART at its last part (R250). -/
def State.countFragment (s : State) (p : Part) (before : Bool) : State :=
  let s : State := if before || p.flags.getLsbD fTRUNC then s.bump (figTrig 3 1) else s
  if p.flags.getLsbD fPRESTART then s.bump (figTrig 3 2) else s

/-- Hand over the part made of the first `n` records in capture. -/
def State.cutPart (s : State) (c : Capture) (e : TrigEntry) (n : Nat) (last trunc : Bool) : State :=
  let p := s.makePart c e (c.recs.take n) (c.found n last) last trunc
  let s : State := if last then s.countFragment p c.truncated else s
  let s := s.setCap (some { c with
    recs := c.recs.drop n, part := c.part + 1, truncated := c.truncated || p.flags.getLsbD fTRUNC, ring := p.ring
    notes := (c.notes.filter (fun x => decide (n ≤ x.at_))).map (fun x => { x with at_ := x.at_ - n }) })
  s.handOver e p

/-- PART_COMPLETE (R243): a full part, or the last one when every slice is read; part 255 is the last of all. -/
def State.partComplete (s : State) : State :=
  match s.trig.cap, s.capEntry with
  | some c, some e =>
    if !s.live || (s.ownMerges && decide (stagingBytes < s.stagingUse)) then s
    else if partRecords < c.recs.length ∨ (c.recs.length = partRecords ∧ c.slices ≠ []) then
      s.cutPart c e partRecords (c.part == 255) (c.part == 255)
    else if c.slices = [] then s.cutPart c e c.recs.length true false
    else s
  | _, _ => s

/-- Entry into SAFE, or POWER to hush or below (R244): waiting entries are discarded and counted, the entry in capture ends with
its current part. -/
def State.stopTriggers (s : State) : State :=
  let waiting := (s.trig.queue.filter (fun e => e.st == .waiting || e.st == .closed)).length
  let s : State := { s with trig := { s.trig with queue := s.trig.queue.filter (fun e => !(e.st == .waiting || e.st == .closed)) } }
  let s := s.bump (figTrig 2 3) waiting
  match s.trig.cap, s.capEntry with
  | some c, some e => s.cutPart { c with slices := [] } e (min partRecords c.recs.length) true true
  | _, _ => s

/-! ### BUSY_N (R248, R249) -/

/-- The watermarks of the step boundary, and the level of BUSY_N (R248, R249). -/
def State.updateBusy (s : State) : State :=
  let hyst := fun (old high low : Bool) => if high then true else if low then false else old
  let n := s.trig.queue.length
  let k := s.partsHeld
  let use := s.stagingUse
  let ing := (List.range 8).map (fun r => (s.ingress r).length)
  let dr := (List.range 8).any (fun d => (s.link d s.red.active).hubDrhi)
  let t := s.trig
  let q := hyst t.busyQ (decide (48 ≤ n)) (decide (n < 32))
  let st := hyst t.busyS (decide (192 ≤ k) || decide (195821568 ≤ use)) (decide (k < 128) && decide (use < 130547712))
  let i := hyst t.busyI (ing.any (fun x => decide (768 ≤ x))) (ing.all (fun x => decide (x < 256)))
  let held := !s.core.running || s.node.mode == .safe || s.node.pstate != .active || !s.live
  { s with trig := { t with busyQ := q, busyS := st, busyI := i, busyD := dr, busy := q || st || i || dr || held } }

/-! ### Meanings -/

def execTcmdNoLock (pair : Fin 2) (s : State) : Host.Outcome State Fault Refusal :=
  .next (s.when (s.live && s.node.mode == .selftest) (fun s => s.tcmdNoLockRow pair))

def execTcmdUnit (unit : BitVec 10) (tick : BitVec 12) (s : State) : Host.Outcome State Fault Refusal :=
  .next (s.tcmdUnit unit tick)

def execTcmdsw (pair : Fin 2) (unlocked : Bool) (s : State) : Host.Outcome State Fault Refusal :=
  .next (s.when s.live (fun s => s.tcmdSwitch pair unlocked))

def execTcmdLock (pair : Fin 2) (s : State) : Host.Outcome State Fault Refusal :=
  .next (s.when s.live (fun s => s.tcmdLock pair))

def execStreamEntry (s : State) : Host.Outcome State Fault Refusal :=
  .next s.streamEntry

def execCaptureStart (s : State) : Host.Outcome State Fault Refusal :=
  .next s.captureStart

def execLineFetch (h : Hub) (line : Nat) (errs : List Line) (s : State) : Host.Outcome State Fault Refusal :=
  .next (s.lineFetch h line errs)

def execPartComplete (s : State) : Host.Outcome State Fault Refusal :=
  .next s.partComplete

end Sys2Proof.Machine
end

