-- ==== Sys2Proof/Machine/Accept.lean ====
section
/-!
DEFINITION. The acceptance of commands: which classes and SUB values exist, where each class is accepted, and the ranges and
reserved bits of their arguments (R76, R184 to R190, R436, R446, R469).
-/

namespace Sys2Proof.Machine

/-- Command classes (R186). -/
def clNop : Nat := 0x00
def clLoad : Nat := 0x01
def clTable : Nat := 0x02
def clMode : Nat := 0x03
def clPower : Nat := 0x04
def clTime : Nat := 0x05
def clTrig : Nat := 0x06
def clQuery : Nat := 0x07
def clLog : Nat := 0x08
def clUpdate : Nat := 0x09
def clOtp : Nat := 0x0A
def clFence : Nat := 0x0B
def clWait : Nat := 0x0C
def clScript : Nat := 0x10

/-- A class and SUB that R186 lists, SCRIPT only in scripts (R185, R186, R191, R464, R469). -/
def listed (cl sub : Nat) (inScript : Bool) : Bool :=
  match cl with
  | 0x00 | 0x01 | 0x02 | 0x0A | 0x0B => sub == 0
  | 0x03 => decide (1 ≤ sub) && decide (sub ≤ 12)
  | 0x04 => decide (sub ≤ 4)
  | 0x05 => decide (sub ≤ 6)
  | 0x06 | 0x0C => decide (sub ≤ 2)
  | 0x07 => decide (1 ≤ sub) && decide (sub ≤ 0x10)
  | 0x08 => decide (sub ≤ 5)
  | 0x09 => decide (sub ≤ 3)
  | 0x10 => inScript && decide (1 ≤ sub) && decide (sub ≤ 5)
  | _ => false

/-- Classes of which a mode script is made (R184). -/
def scriptClass (cl : Nat) : Bool :=
  cl == clNop || cl == clTable || cl == clTime || cl == clTrig || cl == clWait || cl == clScript

/-- Table IDs of R174. -/
def tableId (id : Nat) : Bool := (decide (1 ≤ id) && decide (id ≤ 0x0A)) || (decide (0x83 ≤ id) && decide (id ≤ 0x8F))

/-- Tables that TABLE writes in any mode after LOAD (R186). -/
def tableAnyMode (id : Nat) : Bool :=
  id == idCurve || id == idSkew || id == idThreshold || id == idSeeds || id == idDerating || decide (0x80 ≤ id)

/-- Parameter of a QUERY item within the range of R191. -/
def queryParamOk (sub p : Nat) : Bool :=
  match sub with
  | 0x01 => decide (p < 8) || p == 0xFF
  | 0x05 | 0x07 => decide (p < 4) || p == 0xFF
  | 0x0B => decide (p < 8) || p == 0xFF
  | 0x0C => decide (p ≤ 9)
  | 0x0D => tableId p
  | 0x0E | 0x0F => decide (p < 8)
  | _ => p == 0

/-- Range of INCR: 1,000 ppm around nominal (R330). -/
def incrOk (x : Nat) : Bool := decide (26816702054 ≤ x) && decide (x ≤ 26870389146)

/-- Reserved bits and ranges of the arguments of a command of a listed class and SUB (R76, R184 to R190, R330, R464, R469). -/
def argsOk (cl sub a0 a1 : Nat) : Bool :=
  match cl with
  | 0x01 => a1 % 4096 == 0
  | 0x02 => decide (a0 < 256) && tableId a0 && a1 % 16 == 0
  | 0x05 =>
    match sub with
    | 0 => a0 == 0 && incrOk a1
    | 1 => a0 == 0
    | 2 => a0 == 0
    | 3 =>
      bitsAt a0 0 14 == 0 && decide (bitsAt a0 26 3 ≤ 4) && decide (0 < bitsAt a1 24 40) && decide (0 < bitsAt a1 10 14) &&
        decide (bitsAt a1 10 14 ≤ 10000)
    | 4 =>
      bitsAt a0 0 13 == 0 && bitsAt a1 0 14 == 0 && decide (bitsAt a0 13 2 ≤ 2) && decide (0 < bitsAt a1 30 10) &&
        decide (16 ≤ bitsAt a1 14 16)
    | 5 => bitsAt a0 0 29 == 0 && a1 == 0
    | _ => decide (a0 < 256) && a1 == 0
  | 0x06 =>
    match sub with
    | 0 => decide (a0 < 16) && bitsAt a1 0 8 == 0
    | 1 => decide (a0 < 4) && a1 == 0
    | _ => decide (a0 < 65536) && a1 == 0
  | 0x07 => queryParamOk sub (bitsAt a0 24 8) && a1 % 64 == 0
  | 0x08 =>
    match sub with
    | 0 => decide (a0 < 2 ^ 24)
    | 1 => true
    | 2 | 3 => decide (1 ≤ a0) && decide (a0 ≤ 5)
    | 4 => decide (a0 < 128)
    | _ => a0 == 0 && a1 == 0
  | 0x09 =>
    match sub with
    | 0 => decide (1 ≤ a0) && decide (a0 ≤ 256) && a1 % 4096 == 0
    | _ => a0 == 0 && a1 == 0
  | 0x0A => a0 == 0
  | 0x0C =>
    decide (a0 < 2 ^ 24) &&
      (match sub with
       | 0 => decide (a1 < 2 ^ 32)
       | 1 => true
       | _ => decide (a1 < 2 ^ 20))
  | 0x10 =>
    match sub with
    | 1 => decide (a0 < 2) && a1 == 0
    | 2 => decide (a0 < 256) && a1 == 0
    | 3 => a0 == 0 && decide (a1 < 2 ^ 32)
    | 4 => decide (a0 < 256) && decide (a1 < 2 ^ 32)
    | _ => decide (a0 < 65536) && a1 == 0
  | _ => a0 == 0 && a1 == 0

/-- The node is in a state that takes a command of a class (R182, R186, R436, R439, R446, R448, R451). -/
def State.acceptedIn (s : State) (cl sub a0 : Nat) : Bool :=
  let m := s.node.mode
  let up := !deepState s.node.pstate
  let standby := m == .standby
  match cl with
  | 0x00 | 0x0B => true
  | 0x01 => up && ((m == .selftest && s.node.stdone) || standby)
  | 0x02 => up && s.loaded && (tableAnyMode a0 || standby)
  | 0x03 => s.loaded && s.node.pstate == .active
  | 0x04 => s.loaded
  | 0x05 | 0x0C => up && s.loaded
  | 0x06 => up && (modeConditions m || (sub == 1 && m == .streaming))
  | 0x07 => up
  | 0x08 => up && s.hay.up
  | 0x09 | 0x0A => up && standby && s.hay.up
  | 0x10 =>
    up && (match sub with
      | 1 => !(a0 == 1 && standby)
      | 3 => m == .recovery && !(s.node.refLost && !s.node.refBack)
      | 4 => m == .recovery
      | _ => true)
  | _ => false

/-! ### Commands in progress -/

/-- The command that runs on a source. -/
def State.cmdOf (s : State) : Src → Option Cmd
  | .ring k => (s.cring k).cmd
  | .script => s.node.script.bind (·.cmd)

/-- Sources in order. -/
def srcs : List Src := [.ring 0, .ring 1, .ring 2, .ring 3, .script]

/-- A command of a class runs on a source. -/
def State.runs (s : State) (src : Src) (cl : Nat) : Bool :=
  match s.cmdOf src with
  | some c => cmdClass c.word.toNat == cl
  | none => false

/-- A command that competes with one that arrives is in progress (R196, R464). -/
def State.competing (s : State) (cl : Nat) : Bool :=
  if cl = clMode ∨ cl = clLoad ∨ cl = clPower then
    srcs.any (fun x => s.runs x clMode || s.runs x clLoad || s.runs x clPower)
  else if cl = clUpdate ∨ cl = clOtp then srcs.any (fun x => s.runs x clUpdate || s.runs x clOtp)
  else false

/-- A command reads a buffer of host memory before it acts: LOAD, TABLE, TIME SUB 2, LOG SETWRITE, UPDATE STAGE, OTP (R290). -/
def readsHost (w : Nat) : Bool :=
  let cl := cmdClass w
  cl == clLoad || cl == clTable || (cl == clTime && cmdSub w == 2) || (cl == clLog && cmdSub w == 2) ||
    (cl == clUpdate && cmdSub w == 0) || cl == clOtp

/-- The decision on a command that passes its gate (R186, R196, R464): none to run it, else the status of its refusal. Where its
class is not accepted and a reserved field is not zero the manual gives both statuses; the state is tested first (DESIGN CHOICE,
log 160). -/
def State.refusal (s : State) (w : Nat) (inScript : Bool) : Option Status :=
  let cl := cmdClass w
  let sub := cmdSub w
  let a0 := cmdArg0 w
  if !listed cl sub inScript then some .illegal
  else if !s.acceptedIn cl sub a0 then some .notready
  else if !argsOk cl sub a0 (cmdArg1 w) then some .illegal
  else if s.competing cl then some .busy
  else none

/-- The command of a source when it has the class and SUB of a row. -/
def State.running? (s : State) (src : Src) (cl sub : Nat) : Option Nat :=
  match s.cmdOf src with
  | some c =>
    let w := c.word.toNat
    if cmdClass w = cl ∧ cmdSub w = sub ∧ s.live then some w else none
  | none => none

end Sys2Proof.Machine
end

