-- ==== Sys2Proof/Machine/Modes.lean ====
section
/-!
DEFINITION. Completions, modes, mode scripts and SAFE (R184, R185, R189, R197, R437 to R442, R488).
-/

namespace Sys2Proof.Machine

/-! ### Completions (R197) -/

/-- Entries of a completion ring and slots of a submission ring (R194). -/
def CmdRing.cqSize (r : CmdRing) : Nat := 2 ^ (r.cqlog.toNat + 4)
def CmdRing.sqSize (r : CmdRing) : Nat := 2 ^ (r.sqlog.toNat + 4)

/-- The completion word (R197). -/
def completionWord (phase : Bool) (ring sqhead tag detail status : Nat) : Nat :=
  b2n phase * 2 ^ 63 + ring % 4 * 2 ^ 61 + sqhead % 65536 * 2 ^ 45 + tag % 65536 * 2 ^ 29 + detail % 2 ^ 21 * 2 ^ 8 +
    status % 256

/-- Write a completion with a tag into a ring's completion ring, and its message (R194, R197, R288). -/
def State.writeCompletion (s : State) (k : Fin 4) (tag : Nat) (st : Status) (detail : Nat) : State :=
  let r := s.cring k
  let last := r.cqtail + 1 == r.cqSize
  let w := completionWord r.phase k r.sqhead tag detail st.code
  let s := s.setCring k { r with cqtail := if last then 0 else r.cqtail + 1, phase := if last then !r.phase else r.phase }
  (s.emit (.write (r.cqbase.toNat / 4096 * 4096 + 8 * r.cqtail) (leBytes 8 w))).msix r.vec.toNat

/-- The command in progress on a ring completes (R196, R197). -/
def State.completeRing (s : State) (k : Fin 4) (st : Status) (detail : Nat) : State :=
  match (s.cring k).cmd with
  | none => s
  | some c =>
    let s := s.writeCompletion k (cmdTag c.word.toNat) st detail
    s.setCring k { s.cring k with cmd := none }

/-! ### Stopping acquisition (R237, R488) -/

/-- The stop takes effect (R237, R488). -/
def State.finishStop (s : State) : State :=
  ({ s with core := { s.core with running := false } }).closeWindows

/-- The stop takes effect once every slice of the run is released (R488). -/
def State.checkStop (s : State) : State :=
  match s.core.stopSl with
  | some n => if s.core.running && decide (n ≤ s.core.nextSl) then s.finishStop else s
  | none => s

/-- Acquisition stops before a full slice (R488): closed sheaves are passed at once, and a stop already asked for stands. -/
def State.stopAt (s : State) (n : Nat) : State :=
  if !s.core.running then s
  else
    let s : State := { s with core := { s.core with
      stopSl := some (match s.core.stopSl with
        | some m => min m n
        | none => n)
      startReq := false, stopReq := false } }
    ((List.range 8).foldl (fun s r => s.passAll r) s).checkStop

/-! ### Baler jobs that end without a baler (R268, R270) -/

/-- The destinations of a job no longer wait for it; their part goes out uncompressed (R252, R270). -/
def State.dropJob (s : State) (num : BitVec 32) (part prof : Nat) : State :=
  { s with trig := { s.trig with staging := s.trig.staging.map (fun p =>
      if p.num = num ∧ p.part = part ∧ p.merged = false then { p with jobs := Tbl.set 0 p.jobs prof 0 } else p) } }

/-- Jobs waiting for a baler end ABORTED (R270). -/
def State.abortJobs (s : State) : State :=
  let jobs := s.jobs
  jobs.foldl (fun s j => ((s.dropJob j.num j.part j.prof).bump (figBaler 1 whole 5)).post .balerjob [(5, 4)])
    { s with jobs := [] }

/-! ### Modes (R437 to R440) -/

/-- LSRC of a safety loop's settings word (R408). -/
def lsrcOf (w : BitVec 64) : Nat := bitsAt w.toNat 61 3

/-- On leaving STANDBY a loop on test current returns to LSRC 0 (R408). -/
def Loop420.leaveStandby (l : Loop420) : Loop420 :=
  if lsrcOf l.word = 5 then { l with word := BitVec.ofNat 64 (bitsAt l.word.toNat 0 61) } else l

/-- The node enters a mode (R437, R439): the event with the old and the new mode, on vector 0 and in the log. On entry into
STANDBY a run still going on stops at the next epoch boundary. -/
def State.setMode (s : State) (m : Mode) : State :=
  if s.node.mode = m then s
  else
    let old := s.node.mode
    let s : State := { s with node := { s.node with mode := m } }
    let s : State :=
      if m = .standby then { s with core := { s.core with stopReq := s.core.running || s.core.stopReq, startReq := false } }
      else s
    let s : State :=
      if old = .standby then { s with loopA := s.loopA.leaveStandby, loopB := s.loopB.leaveStandby } else s
    (s.cause 0).post .mode [(old.num, 4), (m.num, 4)]

/-- WAITs in progress on the rings complete with ABORTED (R189). -/
def State.abortWaits (s : State) : State :=
  [(0 : Fin 4), 1, 2, 3].foldl (fun s k => if s.runs (.ring k) clWait then s.completeRing k .aborted 0 else s) s

/-- The script's waiting table writes stay, and complete no step of a later script (R185). -/
def State.detachWrites (s : State) : State :=
  s.modCore (fun c => { c with
    tableDue := c.tableDue.map (fun d => if d.src = some .script then { d with src := none } else d) })

/-- A script in progress ends with the entry into SAFE, its MODE completing with ABORTED; that of a MODE to SAFE goes on (R189,
R440). -/
def State.abortScript (s : State) : State :=
  match s.node.script with
  | none => s
  | some sc =>
    if sc.toSafe then s
    else
      let s := ({ s with node := { s.node with script := none } } : State).detachWrites
      match sc.src with
      | .ring k => s.completeRing k .aborted 0
      | .script => s

/-- Entry into SAFE, from STANDBY on (R244, R270, R440): acquisition stops at that boundary, the trigger queue and the baler
jobs end, WAITs and scripts complete with ABORTED, BUSY_N goes low. -/
def State.enterSafe (s : State) : State :=
  if s.node.mode.num < 3 ∨ s.node.mode = .safe then s
  else
    let s := s.setMode .safe
    let s := (s.stopAt s.fullSlice).stopTriggers.abortJobs
    let s : State := { s with
      core := { s.core with startReq := false }
      trig := { s.trig with busy := true }, node := { s.node with realign := none, newEpoch := none } }
    s.abortWaits.abortScript

/-- The legal transitions that MODE makes (R438). -/
def legalMode (a b : Mode) : Bool :=
  let acq : List Mode := [.triggered, .streaming, .dual, .hub]
  let dst : List Mode := match a with
    | .standby => acq ++ [.calibrate, .inject, .lightcal, .recovery, .safe]
    | .calibrate => acq ++ [.standby, .inject, .lightcal, .safe]
    | .triggered | .streaming | .dual | .hub => acq ++ [.standby, .inject, .lightcal, .recovery, .safe]
    | .inject | .lightcal => acq ++ [.standby, .calibrate, .inject, .lightcal, .recovery, .safe]
    | .recovery => acq ++ [.standby, .calibrate, .inject, .lightcal, .safe]
    | .safe => [.standby, .recovery]
    | .seed | .selftest => []
  a != b && dst.contains b

/-! ### Mode scripts (R184, R185) -/

/-- The directory of a mode-script section, up to its end entry, as 64-bit words. -/
def scriptDir (bs : List Byte) : Nat → List Nat
  | 0 => []
  | n + 1 =>
    let w := leAt bs 0 8
    if w = 0 then [] else w :: scriptDir (bs.drop 8) n

def dirFrom (w : Nat) : Nat := bitsAt w 60 4
def dirTo (w : Nat) : Nat := bitsAt w 56 4
def dirFirst (w : Nat) : Nat := bitsAt w 16 16
def dirCount (w : Nat) : Nat := bitsAt w 0 16

/-- Directory entries of a section. -/
def scriptEntries (bs : List Byte) : List Nat := scriptDir bs (bs.length / 8)

/-- Offset of the first step: the first 16-byte boundary after the end entry (R184). -/
def stepsAt (bs : List Byte) : Nat := (((scriptEntries bs).length + 1) * 8 + 15) / 16 * 16

/-- Steps of a directory entry. -/
def scriptSteps (bs : List Byte) (w : Nat) : List (BitVec 128) :=
  (List.range (dirCount w)).map (fun i => BitVec.ofNat 128 (leAt bs (stepsAt bs + 16 * (dirFirst w + i)) 16))

/-- The script of a transition: FROM the mode in force, else FROM any (R185). -/
def findScript (bs : List Byte) (a b : Mode) : Option (List (BitVec 128)) :=
  let es := scriptEntries bs
  match es.find? (fun w => dirFrom w == a.num && dirTo w == b.num) with
  | some w => some (scriptSteps bs w)
  | none => (es.find? (fun w => dirFrom w == 0 && dirTo w == b.num)).map (scriptSteps bs)

/-- The MODE of the script in progress completes; a failed script that is not a MODE to SAFE's enters SAFE (R185, R440). -/
def State.endMode (s : State) (st : Status) (detail : Nat) : State :=
  match s.node.script with
  | none => s
  | some sc =>
    let s := ({ s with node := { s.node with script := none } } : State).detachWrites
    let s : State := match sc.src with
      | .ring k => s.completeRing k st detail
      | .script => s
    if st = .ok ∨ st = .warn ∨ sc.toSafe then s else s.enterSafe

/-- Start the step at the script's index; after the last step the MODE completes (R185). -/
def State.startStep (s : State) : State :=
  match s.node.script with
  | none => s
  | some sc =>
    match sc.steps[sc.idx]? with
    | none => s.endMode .ok 0
    | some w =>
      match s.refusal w.toNat true with
      | some st => s.endMode st sc.idx
      | none =>
        let s : State := { s with node := { s.node with script := some { sc with cmd := some ⟨w, 0, s.pcie.fetched, 0⟩ } } }
        if readsHost w.toNat then s.emit (.readReq (cmdArg1 w.toNat) 0) else s

/-- A command completes: on its ring, or as a script step, after which the next step starts or the script ends (R185, R197). -/
def State.complete (s : State) (src : Src) (st : Status) (detail : Nat := 0) : State :=
  match src with
  | .ring k => s.completeRing k st detail
  | .script =>
    match s.node.script with
    | none => s
    | some sc =>
      if st = .ok ∨ st = .warn then
        ({ s with node := { s.node with script := some { sc with idx := sc.idx + 1, cmd := none } } }).startStep
      else s.endMode st sc.idx

/-- MODE (R185, R437): legality, then the script, then entry into the target mode as the first step starts. -/
def State.modeCommand (s : State) (k : Fin 4) (w : Nat) : State :=
  match Mode.ofNum? (cmdSub w) with
  | none => s.completeRing k .illegal s.node.mode.num
  | some m =>
    if !legalMode s.node.mode m then s.completeRing k .illegal s.node.mode.num
    else
      match s.node.prog.bind (fun p => findScript p.scripts s.node.mode m) with
      | none => s.completeRing k .illegal 0
      | some steps =>
        let s := if m = .safe then s.enterSafe else s.setMode m
        ({ s with node := { s.node with
            script := some { src := .ring k, steps := steps, idx := 0, cmd := none, toSafe := m == Mode.safe } } }).startStep

/-! ### Script steps (R113, R185, R204, R444) -/

/-- The step of the script when it is a SCRIPT command of a SUB. -/
def State.scriptStep (s : State) (sub : Nat) (f : Nat → State) : State :=
  match s.running? .script clScript sub with
  | some w => f w
  | none => s

/-- START_ACQUISITION (R185, R204): at the next epoch boundary, where the step completes. -/
def State.startStepRow (s : State) : State :=
  s.scriptStep 1 (fun w =>
    if bitAt (cmdArg0 w) 0 then { s with core := { s.core with startReq := true } } else s)

/-- STOP_ACQUISITION (R185, R488): at the next epoch boundary, where the step completes. -/
def State.stopStepRow (s : State) : State :=
  s.scriptStep 1 (fun w =>
    if bitAt (cmdArg0 w) 0 then s else { s with core := { s.core with stopReq := true } })

/-- RETRAIN (R110, R185): a retraining of both links of each region in the mask begins. -/
def State.retrainRow (s : State) : State :=
  s.scriptStep 2 (fun w =>
    let one := fun (s : State) (r : Nat) (h : Hub) =>
      (s.modLink r h (fun l => { l with retrain := true, wire := [] })).say r h .retrain
    let s := (List.range 8).foldl (fun s r => if bitAt (cmdArg0 w) r then one (one s r .a) r .b else s) s
    s.complete .script .ok)

/-- An epoch has begun, by the comparison of R189. -/
def State.epochBegun (s : State) (e : Nat) : Bool := reachedMod 32 s.clock.epoch.toNat e

/-- RETURN_TO_REFCLK (R444): the step is armed for the boundary that starts epoch E, or the next one when E has begun. -/
def State.returnRow (s : State) : State :=
  s.scriptStep 3 (fun w =>
    if s.node.realign.isSome ∨ s.node.newEpoch.isSome then s
    else
      let e := cmdArg1 w
      let target := if s.epochBegun e then s.clock.epoch + 1 else BitVec.ofNat 32 e
      { s with node := { s.node with realign := some target, reRun := s.epochBegun e } })

/-- LIFT_FENCE (R113): the fences of the regions in the mask are lifted at the boundary that starts the epoch; an epoch already
begun is taken as the next one. -/
def State.liftRow (s : State) : State :=
  s.scriptStep 4 (fun w =>
    let e := cmdArg1 w
    let target := if s.epochBegun e then s.clock.epoch + 1 else BitVec.ofNat 32 e
    (List.range 8).foldl (fun s r =>
      if bitAt (cmdArg0 w) r ∧ (s.sorter r).fenced then s.modSorter r (fun x => { x with liftAt := some target }) else s) s)

/-- PROGEVT (R185, R455). -/
def State.progevtRow (s : State) : State :=
  s.scriptStep 5 (fun w => (s.post .progevt [(cmdArg0 w, 16)]).complete .script .ok)

/-! ### Meanings -/

/-- MODE (R437). -/
def execMode (src : Src) (s : State) : Host.Outcome State Fault Refusal :=
  .next (match src, s.node.script with
    | .ring k, none =>
      match s.cmdOf src with
      | some c => if s.live ∧ cmdClass c.word.toNat = clMode then s.modeCommand k c.word.toNat else s
      | none => s
    | _, _ => s)

def execStartAcquisition (s : State) : Host.Outcome State Fault Refusal := .next s.startStepRow

def execStopAcquisition (s : State) : Host.Outcome State Fault Refusal := .next s.stopStepRow

def execRetrain (s : State) : Host.Outcome State Fault Refusal := .next s.retrainRow

def execReturnToRefclk (s : State) : Host.Outcome State Fault Refusal := .next s.returnRow

def execLiftFence (s : State) : Host.Outcome State Fault Refusal := .next s.liftRow

def execProgevt (s : State) : Host.Outcome State Fault Refusal := .next s.progevtRow

end Sys2Proof.Machine
end

