-- ==== Sys2Proof/Machine/Commands.lean ====
section
/-!
DEFINITION. Command fetch and the commands that need no table, settings or flash: NOP, FENCE, WAIT, TIME, TRIG SUB 0 and SUB 2,
and gleaner replies (R186 to R190, R194 to R196, R238, R330 to R332, R346, R76, R52, R167).
-/

namespace Sys2Proof.Machine

/-- The meaning of a row that a command of a class and SUB on a source gives, with the command word. -/
def State.command (s : State) (src : Src) (cl sub : Nat) (f : Nat → State) : State :=
  match s.running? src cl sub with
  | some w => f w
  | none => s

/-! ### Fetch (R194 to R196, R277) -/

/-- The active endpoint may master the bus (R277). -/
def State.mayMaster (s : State) : Bool :=
  let e := s.ep s.red.active
  s.pcie.touched && e.bme && !e.d3hot && e.linkUp

/-- A completion ring without a free entry starts no command (R196). -/
def CmdRing.cqFull (r : CmdRing) : Bool := (r.cqtail + 1) % r.cqSize == r.cqhead

/-- A DMA error on a command fetch (R196, R291): a completion with FAULT, whose tag no command gave, and the ring stops. -/
def State.fetchError (s : State) (k : Fin 4) : State :=
  let r := s.takeFree
  let s := (r.2.writeCompletion k r.1 .fault 0).bump ⟨0x06, 3, 0, s.red.active.idx + 1, whole⟩
  s.setCring k { s.cring k with run := false, err := true }

/-- COMMAND_FETCH (R186, R194 to R196): the active hub fetches the next command of a running ring and starts it, or completes
it with the status of its refusal. -/
def State.commandFetch (s : State) (k : Fin 4) (word : BitVec 128) (good : Bool) : State :=
  let r := s.cring k
  if !s.live || s.node.mode == .seed || !r.run || r.cmd.isSome || r.cqFull || r.sqhead == r.sqtail || !s.mayMaster then s
  else
    let s := s.emit (.readReq (r.sqbase.toNat / 4096 * 4096 + 16 * r.sqhead) 16)
    let s := s.setCring k { r with sqhead := (r.sqhead + 1) % r.sqSize }
    if !good then s.fetchError k
    else
      let n := s.pcie.fetched
      let s : State := { s with pcie := { s.pcie with fetched := n + 1 } }
      let w := word.toNat
      let d := s.refusal w false
      let s := s.setCring k { s.cring k with cmd := some ⟨word, 0, n, 0⟩ }
      match d with
      | some st => s.completeRing k st 0
      | none => if readsHost w then s.emit (.readReq (cmdArg1 w) 0) else s

/-! ### NOP, FENCE, WAIT (R186, R189, R190) -/

/-- Every command fetched before an order number has completed. -/
def State.earlierDone (s : State) (n : Nat) : Bool :=
  [(0 : Fin 4), 1, 2, 3].all (fun k =>
    match (s.cring k).cmd with
    | some c => decide (n ≤ c.order)
    | none => true)

/-- FENCE (R186). -/
def State.fenceCommandRow (s : State) (src : Src) : State :=
  match s.cmdOf src with
  | some c => if s.live ∧ cmdClass c.word.toNat = clFence ∧ s.earlierDone c.order then s.complete src .ok else s
  | none => s

/-- Node time as WAIT compares it, at the step in progress (R189). -/
def State.waitTime (s : State) : Nat := let t := s.nodeNow; wait64 t.1 t.2

/-- The lowest selected event that a WAIT SUB 2 has seen (R190). -/
def seenBit (c : Cmd) : Option Nat :=
  (List.range 20).find? (fun i => c.seen.getLsbD i && bitAt (cmdArg1 c.word.toNat) i)

/-- The condition of a WAIT holds, with its DETAIL (R189, R190). -/
def State.waitHolds (s : State) (c : Cmd) : Option Nat :=
  let w := c.word.toNat
  match cmdSub w with
  | 0 => if s.epochBegun (cmdArg1 w) then some 0 else none
  | 1 => if reachedMod 64 s.waitTime (cmdArg1 w) then some 0 else none
  | _ => seenBit c

/-- A WAIT of a SUB completes OK when its condition holds. -/
def State.waitRow (s : State) (src : Src) (sub : Nat) : State :=
  match s.cmdOf src, s.running? src clWait sub with
  | some c, some _ =>
    match s.waitHolds c with
    | some d => s.complete src .ok d
    | none => s
  | _, _ => s

/-- WAIT_TIMEOUT (R20, R189): a limit of 0 means none; a condition that holds in the cycle of the limit counts as arrived. -/
def State.waitTimeout (s : State) (src : Src) : State :=
  match s.cmdOf src with
  | none => s
  | some c =>
    let w := c.word.toNat
    if !s.live || cmdClass w != clWait || cmdArg0 w == 0 then s
    else
      match s.waitHolds c with
      | some d => s.complete src .ok d
      | none => s.complete src .timeout

/-! ### TIME (R52, R76, R186, R188, R330 to R332, R346) -/

/-- Hayward's firmware runs the servo (R337). -/
def State.servoOn (s : State) : Bool := s.time.w0.getLsbD 47

/-- INCR (R330, R332, R342): the value written last in gate order wins at the next epoch boundary; CONFLICT while the servo runs. -/
def State.incrRow (s : State) (src : Src) : State :=
  s.command src clTime 0 (fun w =>
    if s.servoOn then s.complete src .conflict else
    ({ s with time := { s.time with incrDue := some (cmdArg1 w) } }).complete src .ok)

/-- A step of node time (R331, R332, R342): steps of one boundary are added; CONFLICT while the servo runs. -/
def State.timeStepRow (s : State) (src : Src) : State :=
  s.command src clTime 1 (fun w =>
    if s.servoOn then s.complete src .conflict else
    ({ s with time := { s.time with stepDue := some (s.time.stepDue.getD 0 + signed 64 (cmdArg1 w)) } }).complete src .ok)

/-- Users of R172. -/
def userTime : Nat := 1
def userTrigger : Nat := 2
def userTally : Nat := 3
def userLed : Nat := 5
def userLoop : Nat := 6
def userMon : Nat := 7
def userOutput : Nat := 8

/-- Resource types of R172. -/
def resTout : Nat := 1
def resMf : Nat := 2
def resMon : Nat := 3
def resSource : Nat := 4
def resExc : Nat := 5
def resTally : Nat := 6
def resBaler : Nat := 7
def resLed : Nat := 8
def resLoop : Nat := 9
def resPort : Nat := 10

/-- Units of 2^-16 ns in one coarse tick of 0.78125 ns. -/
def tickUnits : Nat := 51200

/-- The fields of a TOUT block are in range (R9, R346). -/
def toutOk (b : Nat) : Bool :=
  let per := bitsAt b 128 40 * 65536 + bitsAt b 168 16
  let w := bitsAt b 192 16
  bitsAt b 48 16 == 0 && bitsAt b 112 16 == 0 && bitsAt b 184 8 == 0 && bitsAt b 214 10 == 0 &&
    decide (bitsAt b 64 32 < 1000000000) && (bitsAt b 128 40 == 0 || decide (100 ≤ bitsAt b 128 40)) && decide (1 ≤ w) &&
    (bitsAt b 128 40 == 0 || decide (w * tickUnits < per))

/-- TOUT (R346, R347): the block waits for the next slice boundary. -/
def State.toutRow (s : State) (src : Src) (block : BitVec 256) : State :=
  s.command src clTime 2 (fun _ =>
    let b := block.toNat
    let k := bitsAt b 212 2
    if !toutOk b then s.complete src .illegal
    else if !s.mayTake resTout k userTime then s.complete src .conflict
    else
      let s := s.takeClaim resTout k userTime
      (s.setGen k { s.gen k with wait := some block }).complete src .ok)

/-- Set-up of a frequency gate (R76, R188). Which TOUT series source 4 takes the manual does not say: a free value. -/
def freqSetup (a0 a1 free : Nat) : TallySetup :=
  { diff := false, src := bitsAt a0 26 3, chan := bitsAt a0 14 12, pnom := bitsAt a1 24 40, gate := bitsAt a1 10 14
    cont := bitAt a1 9, slope := bitAt a1 8, thr := bitsAt a1 0 8, evt := free % 4, dly := 0, win := 0, k := 0, target := 0 }

/-- Set-up of a difference run (R76, R188). -/
def diffSetup (a0 a1 : Nat) : TallySetup :=
  { diff := true, src := 5, chan := bitsAt a0 17 12, pnom := 0, gate := 0, cont := false, slope := false, thr := 0
    evt := bitsAt a0 15 2, dly := signed 24 (bitsAt a1 40 24), win := bitsAt a1 30 10, k := bitsAt a1 14 16
    target := bitsAt a0 13 2 }

/-- The unit with no run (R188). -/
def Tally.idle (t : Tally) : Tally :=
  { t with
    setup := none, nextSetup := none, opened := false, closed := false, openAt := 0, sums := TallySums.zero, hold := false
    stamps := [], pulses := [], hits := [] }

/-- A set-up reaches a unit in a slice: at once, or in place of the run at its gate boundary (R77, R188). -/
def Tally.begin (t : Tally) (x : TallySetup) (slice : Nat) : Tally :=
  if t.setup.isSome then { t with nextSetup := some x } else { t.idle with setup := some x, readySl := slice }

/-- A set-up is a writing run: a difference run that writes the skew table (R82). -/
def TallySetup.writes (x : TallySetup) : Bool := x.diff && decide (x.target ≤ 1)

/-- A difference run that writes the skew table is in progress on a unit (R82, R188). -/
def Tally.writing (t : Tally) : Bool :=
  match t.setup with
  | some x => x.writes
  | none => false

/-- A writing run is in progress on a unit, or waits for its gate boundary (R82, R188). -/
def Tally.willWrite (t : Tally) : Bool := t.writing || (t.nextSetup.map TallySetup.writes).getD false

/-- A set-up as a command (R76, R82, R173, R188). -/
def State.tallySetup (s : State) (src : Src) (u : Nat) (x : TallySetup) : State :=
  if !s.mayTake resTally u userTally then s.complete src .conflict
  else if (s.tally u).writing || (x.writes && (List.range 8).any (fun v => v != u && (s.tally v).willWrite)) then
    s.complete src .busy
  else
    let s := s.takeClaim resTally u userTally
    (s.setTally u ((s.tally u).begin x s.fullSlice)).complete src .ok

/-- TALLY_FREQUENCY (R76, R188). -/
def State.tallyFrequencyRow (s : State) (src : Src) : State :=
  s.command src clTime 3 (fun w =>
    let r := if bitsAt (cmdArg0 w) 26 3 = 4 then s.takeFree else (0, s)
    r.2.tallySetup src (bitsAt (cmdArg0 w) 29 3) (freqSetup (cmdArg0 w) (cmdArg1 w) r.1))

/-- TALLY_DIFFERENCE (R76, R188). -/
def State.tallyDifferenceRow (s : State) (src : Src) : State :=
  s.command src clTime 4 (fun w =>
    s.tallySetup src (bitsAt (cmdArg0 w) 29 3) (diffSetup (cmdArg0 w) (cmdArg1 w)))

/-- STOP_TALLY_UNIT (R186): the unit's run ends without a result. -/
def State.stopTallyRow (s : State) (src : Src) : State :=
  s.command src clTime 5 (fun w =>
    let u := bitsAt (cmdArg0 w) 29 3
    if !s.mayTake resTally u userTally then s.complete src .conflict
    else (s.setTally u (s.tally u).idle).complete src .ok)

/-- INJECTION_STROBE (R52, R186): the strobe goes to the FE dies named. -/
def State.strobeRow (s : State) (src : Src) : State :=
  s.command src clTime 6 (fun w =>
    ((List.range 8).foldl (fun s n => if bitAt (cmdArg0 w) n then s.say n s.red.active .strobe else s) s).complete src .ok)

/-! ### TRIG SUB 0 and SUB 2 (R231, R238) -/

/-- SOFTWARE_TRIGGER (R238): the window of the named condition, enabled or not, about the time given. -/
def State.softTriggerRow (s : State) (src : Src) : State :=
  s.command src clTrig 0 (fun w =>
    let c := cmdArg0 w
    let a1 := cmdArg1 w
    if (s.table idDecode).isEmpty ∨ s.decConds ≤ c then s.complete src .illegal
    else if queueCap ≤ s.trig.queue.length then s.complete src .busy
    else
      let t : Int := s.epochNear (BitVec.ofNat 32 (bitsAt a1 32 32)) * 2 ^ 24 + (bitsAt a1 8 24 : Nat)
      let w3 := s.condWord c 3
      let w4 := s.condWord c 4
      (s.makeEntry (t - condPre w4) (t + condPost w4) (condOut w3) (condComp w3) (2 ^ c) true false).complete src .ok)

/-- CONDITION_ENABLE_MASK (R231): the mask replaced still holds for instances that the gate stamped in earlier steps. -/
def State.condMaskRow (s : State) (src : Src) : State :=
  s.command src clTrig 2 (fun w =>
    let old := (s.trig.oldMasks ++ [(s.clock.step, s.trig.mask)]).filter (fun p => decide (s.clock.step ≤ p.1 + 8))
    ({ s with trig := { s.trig with mask := BitVec.ofNat 16 (cmdArg0 w), oldMasks := old } }).complete src .ok)

/-! ### Gleaner replies (R167, R469) -/

/-- REPLY (R167, R469): queued for mrecv, ending a waitev that waits for it; BUSY with 4 queued. -/
def State.replyRow (s : State) (src : Src) : State :=
  s.command src clLog 4 (fun w =>
    let g := cmdArg0 w
    let x := s.gleaner g
    if replyCap ≤ x.replies.length then s.complete src .busy
    else
      let y := { x with replies := x.replies ++ [BitVec.ofNat 64 (cmdArg1 w)] }
      (s.setGleaner g (y.endWait false false)).complete src .ok)

/-! ### Meanings -/

def execCommandFetch (ring : Fin 4) (word : BitVec 128) (good : Bool) (s : State) : Host.Outcome State Fault Refusal :=
  .next (s.commandFetch ring word good)

def execNopCommand (src : Src) (s : State) : Host.Outcome State Fault Refusal :=
  .next (s.command src clNop 0 (fun _ => s.complete src .ok))

def execFenceCommand (src : Src) (s : State) : Host.Outcome State Fault Refusal := .next (s.fenceCommandRow src)

def execWaitEpoch (src : Src) (s : State) : Host.Outcome State Fault Refusal := .next (s.waitRow src 0)

def execWaitNodeTime (src : Src) (s : State) : Host.Outcome State Fault Refusal := .next (s.waitRow src 1)

def execWaitEvent (src : Src) (s : State) : Host.Outcome State Fault Refusal := .next (s.waitRow src 2)

def execWaitTimeout (src : Src) (s : State) : Host.Outcome State Fault Refusal := .next (s.waitTimeout src)

def execIncr (src : Src) (s : State) : Host.Outcome State Fault Refusal := .next (s.incrRow src)

def execTimeStep (src : Src) (s : State) : Host.Outcome State Fault Refusal := .next (s.timeStepRow src)

def execTout (src : Src) (block : BitVec 256) (s : State) : Host.Outcome State Fault Refusal :=
  .next (s.toutRow src block)

def execTallyFrequency (src : Src) (s : State) : Host.Outcome State Fault Refusal := .next (s.tallyFrequencyRow src)

def execTallyDifference (src : Src) (s : State) : Host.Outcome State Fault Refusal := .next (s.tallyDifferenceRow src)

def execStopTallyUnit (src : Src) (s : State) : Host.Outcome State Fault Refusal := .next (s.stopTallyRow src)

def execInjectionStrobe (src : Src) (s : State) : Host.Outcome State Fault Refusal := .next (s.strobeRow src)

def execSoftwareTrigger (src : Src) (s : State) : Host.Outcome State Fault Refusal := .next (s.softTriggerRow src)

def execConditionEnableMask (src : Src) (s : State) : Host.Outcome State Fault Refusal := .next (s.condMaskRow src)

def execReply (src : Src) (s : State) : Host.Outcome State Fault Refusal := .next (s.replyRow src)

end Sys2Proof.Machine
end

