-- ==== Sys2Proof/Machine/Tables.lean ====
section
/-!
DEFINITION. The tables of a node program: their sizes, the legality of their fields, and the TABLE command (R34, R35, R41, R60,
R65, R95, R149 to R151, R174 to R181, R187, R254 to R256, R303, R304, R424).
-/

namespace Sys2Proof.Machine

/-! ### Legal fields -/

/-- All numbers below n satisfy a test. -/
def allBelow (n : Nat) (f : Nat → Bool) : Bool := (List.range n).all f

/-- Curve table: reserved bits (R151). -/
def curveOk (m : List Host.Cell) : Bool :=
  allBelow 4096 (fun ch =>
    allBelow 8 (fun k => numAt m ((ch * 8 + k) * 16 + 8) 8 == 0) && bitsAt (numAt m ((ch * 8 + 7) * 16) 8) 48 16 == 0)

/-- Channel setting word: GAIN and reserved bits (R34). -/
def channelWordOk (w : Nat) : Bool := gainOf w != 3 && bitsAt w 0 8 == 0

/-- Region setting word (R35). -/
def regionWordOk (w : Nat) : Bool :=
  decide (guardOf w ≤ 1600) && decide (34 ≤ hitlimOf w) && bitsAt w 0 18 == 0

/-- Threshold table: the words, and the limit of R41 on cells with GAIN = AUTO. -/
def thresholdOk (m : List Host.Cell) : Bool :=
  allBelow 8 (fun d =>
    let rw := numAt m (0x4000 + 8 * d) 8
    regionWordOk rw &&
      allBelow 512 (fun c =>
        let w := numAt m (4 * (512 * d + c)) 4
        channelWordOk w && !(gainOf w == 2 && trangeOf rw == 7 && decide (922 ≤ thrOf w))))

/-- A transition of the decode table (R178, R182): only the test of F is limited to valid transitions. -/
def transitionOk (m : List Host.Cell) (raw : Bool) (nstates t : Nat) : Bool :=
  let fieldOn := bitAt (numAt m (16 + 4 * trF t) 4) 31
  bitsAt t 0 20 == 0 &&
    decide (trNext t < nstates) && decide (trPos t ≤ 9) && decide (trLen t ≤ 10) && decide (trPos t + trLen t ≤ 10) &&
    trValue t &&& trMask t == trValue t && (!trSlip t || raw) &&
    (!trV t || fieldOn || !(trClr t || decide (0 < trLen t) || trEmit t))

/-- A condition entry of the decode table (R179, R182). -/
def conditionOk (m : List Host.Cell) (off : Nat) : Bool :=
  let w3 := numAt m (off + 24) 8
  let w4 := numAt m (off + 32) 8
  bitsAt w3 0 48 == 0 && bitsAt w4 56 8 == 0 && decide (condPre w4 + condPost w4 ≤ 2 ^ 27)

/-- Decode table (R178, R179, R182). -/
def decodeOk (m : List Host.Cell) : Bool :=
  let h := numAt m 0 8
  let ns := bitsAt h 8 8
  let nc := bitsAt h 16 5
  bitsAt h 1 7 == 0 && bitsAt h 21 43 == 0 && numAt m 8 8 == 0 && decide (1 ≤ ns) && decide (ns ≤ 64) && decide (1 ≤ nc) &&
    decide (nc ≤ 16) &&
    allBelow 16 (fun f =>
      let w := numAt m (16 + 4 * f) 4
      bitsAt w 7 24 == 0 && (!bitAt w 31 || (decide (1 ≤ bitsAt w 0 7) && decide (bitsAt w 0 7 ≤ 64)))) &&
    allBelow ns (fun st =>
      bitsAt (numAt m (80 + 136 * st) 8) 8 56 == 0 &&
        allBelow 16 (fun i => transitionOk m (bitAt h 0) ns (numAt m (88 + 136 * st + 8 * i) 8))) &&
    allBelow nc (fun c => conditionOk m (80 + 136 * ns + 40 * c))

/-- Field-to-time table: reserved bits (R180). -/
def fttOk (m : List Host.Cell) : Bool := allBelow 16 (fun i => bitsAt (numAt m (16 * i) 8) 32 26 == 0)

/-- Format table: the bounds of valid moves, and reserved bits (R181). -/
def formatOk (m : List Host.Cell) : Bool :=
  allBelow 16 (fun i =>
    let w := numAt m (4 * i) 4
    let len := bitsAt w 12 6 + 1
    bitsAt w 0 12 == 0 && (!bitAt w 31 || (decide (bitsAt w 24 7 + len ≤ 128) && decide (bitsAt w 18 6 + len ≤ 64))))

/-- Fields of an operation word of a profile (R256). -/
def opKind (w : Nat) : Nat := bitsAt w 62 2
def opPos (w : Nat) : Nat := bitsAt w 55 7
def opLen (w : Nat) : Nat := bitsAt w 48 7 + 1
def opMask (w : Nat) : Nat := bitsAt w 32 16

/-- Two operations that share a kind share no bit of the record (R256). -/
def opsApart (a b : Nat) : Bool :=
  opMask a &&& opMask b == 0 || decide (opPos a + opLen a ≤ opPos b) || decide (opPos b + opLen b ≤ opPos a)

/-- An operation word (R256). -/
def opOk (form : Bool) (w : Nat) : Bool :=
  (opKind w == 1 || opKind w == 2) && bitsAt w 0 32 == 0 && decide (opLen w ≤ 64) &&
    (if form then decide (opPos w + opLen w ≤ 64) && opMask w == 0xFFFF else decide (opPos w + opLen w ≤ 124))

/-- A profile of the delta transform table (R255, R256): reserved bits in all 16 operation words, OP and the field in those in
use (DEDUCED, log 75). -/
def profileOk (m : List Host.Cell) (off : Nat) : Bool :=
  let w := numAt m off 8
  let n := nopsOf w
  let ib := iblkOf w
  let op := fun i => numAt m (off + 16 + 8 * i) 8
  numAt m (off + 8) 8 == 0 && bitsAt w 13 19 == 0 && decide (n ≤ 16) &&
    (if indepOf w then decide (1 ≤ ib) && (formOf w || decide (ib ≤ 4095)) else ib == 0) &&
    allBelow 16 (fun i => bitsAt (op i) 0 32 == 0) && allBelow n (fun i => opOk (formOf w) (op i) && allBelow i (fun j => opsApart (op i) (op j)))

/-- Delta transform table (R254 to R256). -/
def deltaOk (m : List Host.Cell) : Bool :=
  let h := numAt m 0 8
  let n := bitsAt h 0 8
  bitsAt h 28 36 == 0 && numAt m 8 8 == 0 && decide (1 ≤ n) && decide (n ≤ 8) &&
    allBelow 5 (fun d => bitsAt h (8 + 4 * d) 4 == 0xF || decide (bitsAt h (8 + 4 * d) 4 < n)) &&
    allBelow n (fun p => profileOk m (16 + 144 * p))

/-- TDC control word (R65) and FE control word (R95). -/
def tdcCtlOk (w : Nat) : Bool := bitsAt w 30 2 != 3 && decide (bitsAt w 12 4 ≤ 8) && bitsAt w 0 4 == 0

def feCtlOk (w : Nat) : Bool :=
  bitsAt w 20 4 != 0 && decide (bitsAt w 16 4 < bitsAt w 20 4) && decide (bitsAt w 12 4 ≤ 12) && bitsAt w 8 4 != 0 &&
    bitsAt w 0 8 == 0

/-- Dies of a band part with a seed map in the table (R176). -/
def mapsIn (m : List Host.Cell) (off : Nat) : Nat :=
  ((List.range 8).filter (fun n => !bitAt (byteAt m (off + 0x26)).toNat n)).length

/-- Band seeds (R60, R65, R95, R176). -/
def seedsOk (m : List Host.Cell) : Bool :=
  allBelow 8 (fun n => tdcCtlOk (numAt m (8 * n) 4) && feCtlOk (numAt m (8 * n + 4) 4)) &&
    allBelow 5 (fun b =>
      let off := bandOff m b
      let scrub := numAt m (off + 0x24) 2
      allBelow 9 (fun n => byteAt m (off + 4 * n + 3) == 0) && decide (1 ≤ scrub) && decide (scrub ≤ 3600) &&
        allBelow 25 (fun i => byteAt m (off + 0x27 + i) == 0) &&
        allBelow (mapsIn m off * 262144) (fun i => bitsAt (numAt m (off + 64 + 2 * i) 2) 14 2 == 0))

/-- LED derating table (R424); `on` says which regular monitor entries are enabled. -/
def deratingOk (on : Nat → Bool) (m : List Host.Cell) : Bool :=
  let h := numAt m 0 8
  bitsAt h 32 32 == 0 && numAt m 8 8 == 0 &&
    allBelow 4 (fun n =>
      let off := 16 + 144 * n
      let w := numAt m (off + 8) 8
      let k := if bitsAt w 0 4 = 0 then 16 else bitsAt w 0 4
      let x := fun i => signed 32 (numAt m (off + 20 + 8 * i) 4)
      (!bitAt h (8 * n + 7) || on (bitsAt h (8 * n) 6)) && bitsAt w 4 60 == 0 &&
        allBelow 16 (fun i => decide (numAt m (off + 16 + 8 * i) 4 ≤ 65536)) &&
        allBelow (k - 1) (fun i => decide (x i < x (i + 1))))

/-- PARAM of the claim of a port in a list of claims (R320). -/
def portParamIn (cs : List Claim) (p : Nat) : Nat :=
  ((cs.find? (fun c => decide (c.type = 0x0A) && decide (c.index = p))).map (·.param)).getD 0

/-- Lane presets table (R303, R304). -/
def presetsOk (cs : List Claim) (m : List Host.Cell) : Bool :=
  let w := numAt m 0 8
  numAt m 8 8 == 0 && bitsAt w 16 26 == 0 &&
    allBelow 4 (fun p =>
      let role := bitsAt (portParamIn cs p) 0 2
      (role == 0 || bitsAt (pcfgOf w p) 0 3 != 0) && (!bitAt (mdestOf w) (p + 1) || role == 1)) &&
    allBelow 480 (fun i =>
      let e := numAt m (16 + 8 * i) 8
      bitsAt e 0 40 == 0 && decide (bitsAt e 60 4 + bitsAt e 55 5 ≤ 32))

/-- The fields of a table are legal (R182, R187). -/
def tableOk (on : Nat → Bool) (cs : List Claim) (id : Nat) (m : List Host.Cell) : Bool :=
  match id with
  | 0x01 => curveOk m
  | 0x03 => thresholdOk m
  | 0x04 => decodeOk m
  | 0x05 => fttOk m
  | 0x06 => formatOk m
  | 0x07 => deltaOk m
  | 0x08 => seedsOk m
  | 0x09 => deratingOk on m
  | 0x0A => presetsOk cs m
  | _ => true

/-- The size that a table must have, read from the table itself where it depends on it (R174, R176, R254, R303, R424); none for
a gleaner table. -/
def tableSize (id : Nat) (m : List Host.Cell) : Option Nat :=
  match id with
  | 0x01 => some 524288
  | 0x02 => some 16384
  | 0x03 => some 16448
  | 0x04 => some (80 + 136 * bitsAt (numAt m 0 4) 8 8 + 40 * bitsAt (numAt m 0 4) 16 5)
  | 0x05 => some 256
  | 0x06 => some 72
  | 0x07 => some (16 + 144 * bitsAt (numAt m 0 4) 0 8)
  | 0x08 => some (bandOff m 5)
  | 0x09 => some 592
  | 0x0A => some 3856
  | _ => none

/-! ### Writes (R36, R150, R187, R236) -/

/-- A regular monitor entry is in use (R386, R393). -/
def Monitor.on (x : Monitor) (e : Nat) : Bool :=
  decide (e < bitsAt x.header.toNat 54 7) && (Tbl.get 0 x.regular e).getLsbD 63

/-- A table with the writes that still wait. -/
def State.tableAhead (s : State) (id : Nat) : List Host.Cell :=
  (s.core.tableDue.filter (fun d => d.id == id)).foldl (fun m d => putBytes m d.off d.bytes) (s.table id)

/-- Send the setting words of a threshold table that differ from those the FE dies were last sent: an older table's, or, with no
older table, the words At SEED (R34 to R36). -/
def State.sendSettings (s : State) (old new : List Host.Cell) : State :=
  let chan := fun (o : Nat) => if old.isEmpty then settingAtSeed.toNat else numAt old o 4
  let region := fun (o : Nat) => if old.isEmpty then regionAtSeed.toNat else numAt old o 8
  (List.range 8).foldl (fun s d =>
    let s := (List.range 512).foldl (fun s c =>
      let ch := 512 * d + c
      let w := numAt new (4 * ch) 4
      if w = chan (4 * ch) then s else s.say d s.red.active (.setting (Fin.ofNat 4096 ch) (BitVec.ofNat 32 w))) s
    let w := numAt new (0x4000 + 8 * d) 8
    if w = region (0x4000 + 8 * d) then s else s.say d s.red.active (.region (BitVec.ofNat 64 w))) s

/-- Send the control words of a band seeds table that differ from those the FE dies were last sent: an older table's, or, with no
older table, the words At SEED (R65, R95). -/
def State.sendControls (s : State) (old new : List Host.Cell) : State :=
  let was := fun (seed : BitVec 32) (o : Nat) => if old.isEmpty then seed.toNat else numAt old o 4
  (List.range 8).foldl (fun s d =>
    let t := numAt new (8 * d) 4
    let f := numAt new (8 * d + 4) 4
    let s := if t = was tdcCtlAtSeed (8 * d) then s else s.say d s.red.active (.tdcCtl (BitVec.ofNat 32 t))
    if f = was feCtlAtSeed (8 * d + 4) then s else s.say d s.red.active (.feCtl (BitVec.ofNat 32 f))) s

/-- The skew table before a slice boundary is kept while slices before it are unreleased (R80). -/
def HubCore.keepSkews (c : HubCore) (old : List Host.Cell) (at_ : Nat) : HubCore :=
  { c with oldSkews := (c.oldSkews ++ [(at_, old)]).filter (fun p => decide (c.nextSl < p.1)) }

/-- A write to a table takes effect at a slice boundary (R36, R65, R80, R95, R150, R213, R236). -/
def State.writeTable (s : State) (id off : Nat) (bytes : List Byte) (at_ : Nat) : State :=
  let old := s.table id
  let new := putBytes old off bytes
  let s := s.changeTable id off bytes
  let s := if id = idSkew then s.modCore (fun c => c.keepSkews old at_) else s
  if id = idThreshold then s.sendSettings old new
  else if id = idSeeds then s.sendControls old new
  else if id = idSkew ∨ id = idCurve then { s with trig := { s.trig with margin := s.marginOf } }
  else s

/-- Sheaves of a region on their way to the collector (R122, R125). -/
def State.inWork (s : State) (r : Nat) : List Sheaf :=
  let x := s.sorter r
  (x.opened ++ x.closed ++ s.core.distrib ++ s.core.deques.flatMap (·.2) ++ s.core.gleaners.filterMap (·.2.sheaf)).filter
    (fun sh => sh.region == r)

/-- Every sheaf of the slices before a boundary is done (R150); of a fenced region, every sheaf that it has made. -/
def State.drained (s : State) (b : Nat) : Bool :=
  !s.core.running ||
    allBelow (b - s.core.nextSl) (fun i =>
      let q := seqOf (s.core.nextSl + i)
      allBelow 8 (fun r =>
        s.core.done.any (fun d => d.region == r && d.seq == q) ||
          ((s.sorter r).fenced && (s.inWork r).all (fun sh => sh.seq != q))))

/-- Placement is held from the oldest boundary of a waiting write on (R150). -/
def HubCore.holdAgain (c : HubCore) : HubCore :=
  { c with holdFrom := (c.tableDue.map (·.at_)).foldl (fun b n => some (match b with
    | none => n
    | some m => min m n)) none }

/-- The oldest write that waits is applied, and its TABLE command completes (R150, R187). -/
def State.applyWrite (s : State) (d : TableWrite) (rest : List TableWrite) : State :=
  let s := (s.modCore (fun c => { c with tableDue := rest }.holdAgain)).writeTable d.id d.off d.bytes d.at_
  match d.src with
  | some x => s.complete x .ok
  | none => s

/-- Every write that still waits is applied: a LOAD comes before the boundary of some (DEDUCED, log 79). -/
def State.applyWaiting (s : State) : Nat → State
  | 0 => s
  | n + 1 =>
    match s.core.tableDue with
    | [] => s
    | d :: rest => (s.applyWrite d rest).applyWaiting n

/-- Apply the table writes whose boundary has come and whose earlier sheaves are done, oldest first (R150, R187). -/
def State.applyTables (s : State) : Nat → State
  | 0 => s
  | n + 1 =>
    match s.core.tableDue with
    | [] => s
    | d :: rest =>
      if d.at_ ≤ s.fullSlice ∧ s.drained d.at_ then (s.applyWrite d rest).applyTables n else s

/-- Queue a table write for the next slice boundary (R82, R150). -/
def State.queueTable (s : State) (id off : Nat) (bytes : List Byte) (src : Option Src) : State :=
  s.modCore (fun c =>
    let d : TableWrite := ⟨id, off, bytes, s.fullSlice + 1, src⟩
    { c with tableDue := c.tableDue ++ [d] }.holdAgain)

/-- TABLE (R187): the patch block is checked, then waits for its boundary. -/
def State.tableRow (s : State) (src : Src) (block : List Byte) : State :=
  s.command src clTable 0 (fun w =>
    let id := cmdArg0 w
    let off := leAt block 0 4
    let len := leAt block 4 4
    let size := match s.node.prog with
      | some p => Tbl.get 0 p.sizes id
      | none => 0
    let bytes := (block.drop 16).take len
    if s.core.tableDue.any (fun d => d.src == some src) then s
    else if leAt block 8 8 ≠ 0 ∨ off % 4 ≠ 0 ∨ len % 4 ≠ 0 ∨ size = 0 ∨ size < off + len ∨ bytes.length ≠ len then
      s.complete src .illegal
    else
      let m := putBytes (s.tableAhead id) off bytes
      let sized := match tableSize id m with
        | some n => n == size
        | none => true
      if !sized || !tableOk s.mon.on s.node.claims id m then s.complete src .illegal
      else if id = idSkew ∧ (List.range 8).any (fun u => (s.tally u).writing) then s.complete src .busy
      else s.queueTable id off bytes (some src))

/-! ### Meanings -/

def execTable (src : Src) (block : List Byte) (s : State) : Host.Outcome State Fault Refusal :=
  .next (s.tableRow src block)

end Sys2Proof.Machine
end

