-- ==== Sys2Proof/Machine/Load.lean ====
section
/-!
DEFINITION. LOAD: the Hutraeno image, the eight checks, and what a load that passes does (R31, R144, R170 to R177, R182 to R184).
-/

namespace Sys2Proof.Machine

/-! ### The image (R170, R171) -/

/-- A section of the directory (R171). -/
structure Sect where
  type : Nat
  id   : Nat
  off  : Nat
  size : Nat
  attr : Nat
  deriving DecidableEq, Repr

def imgNsect (b : List Byte) : Nat := leAt b 0x0C 2
def imgEntry (b : List Byte) : Nat := leAt b 0x10 4
def imgSwdog (b : List Byte) : Nat := leAt b 0x14 4
def imgSigned (b : List Byte) : Bool := bitAt (leAt b 6 2) 0

/-- The section directory. -/
def sections (b : List Byte) : List Sect :=
  (List.range (imgNsect b)).map (fun i =>
    let o := 0x40 + 16 * i
    ⟨leAt b o 2, leAt b (o + 2) 2, leAt b (o + 4) 4, leAt b (o + 8) 4, leAt b (o + 12) 4⟩)

/-- Bytes of a section. -/
def sectBytes (b : List Byte) (x : Sect) : List Byte := (b.drop x.off).take x.size

def sigSect (b : List Byte) : Option Sect := (sections b).find? (fun x => x.type == 5)

/-- The image without its signature section. -/
def unsignedImage (b : List Byte) : List Byte :=
  match sigSect b with
  | some x => b.take x.off ++ b.drop (x.off + x.size)
  | none => b

/-- The bytes that ICRC covers, its own field taken as zero (R170). -/
def icrcBytes (b : List Byte) : List Byte :=
  let z := b.take 0x3C ++ [0, 0, 0, 0] ++ b.drop 0x40
  if imgSigned b then unsignedImage z else z

/-- Section of a type, and of a table ID. -/
def sectOf (b : List Byte) (type : Nat) : Option Sect := (sections b).find? (fun x => x.type == type)
def tableSect (b : List Byte) (id : Nat) : Option Sect := (sections b).find? (fun x => x.type == 3 && x.id == id)

/-- Bytes of the section of a type; empty when there is none. -/
def typeBytes (b : List Byte) (type : Nat) : List Byte := ((sectOf b type).map (sectBytes b)).getD []

/-- Bytes of a table; empty when there is none. -/
def tableBytes (b : List Byte) (id : Nat) : List Byte := ((tableSect b id).map (sectBytes b)).getD []

/-- A claim of the manifest with its reserved bits (R172). -/
def manifestWord (b : List Byte) (i : Nat) : Nat := leAt (typeBytes b 1) (8 * i) 8
def manifestCount (b : List Byte) : Nat := (typeBytes b 1).length / 8

def claimOf (w : Nat) : Claim := ⟨bitsAt w 56 8, bitsAt w 48 8, bitsAt w 40 8, bitsAt w 32 8⟩

/-- The claims of a manifest, the loop that a LED string brings with it included (R172, R411). -/
def claimsOf (ws : List Nat) : List Claim :=
  ws.flatMap (fun w =>
    let c := claimOf w
    if c.type = 8 ∧ c.user = 5 then [c, ⟨9, c.index, c.user, 0⟩] else [c])

def manifest (b : List Byte) : List Nat := (List.range (manifestCount b)).map (manifestWord b)

/-! ### The checks (R182) -/

/-- A failed check: its number, DETAIL [15:0], and the status. -/
structure Failed where
  check  : Nat
  detail : Nat
  status : Status
  deriving DecidableEq, Repr

/-- Index of the first section that a test refuses. -/
def badSect (b : List Byte) (f : Sect → Bool) : Option Nat := (sections b).findIdx? (fun x => !f x)

/-- Check 2 (R170, R182). -/
def headerOk (b : List Byte) : Bool :=
  leAt b 0 4 == 0x49545548 && leAt b 4 2 == 1 && leAt b 0x18 2 == 0x4096 && leAt b 8 4 == b.length && b.length % 16 == 0 &&
    decide (b.length ≤ 64 * 1024 * 1024) && decide (3 ≤ imgNsect b) && decide (imgNsect b ≤ 64) &&
    decide (imgSwdog b ≤ 1048576) && bitsAt (leAt b 6 2) 1 15 == 0 && leAt b 0x0E 2 == 0 && leAt b 0x1C 4 == 0 &&
    leAt b 0x30 12 == 0 && leAt b 0x3C 4 == crc32c (icrcBytes b)

/-- The node-program key and the signature of an image (R171). -/
def State.signatureOk (s : State) (b : List Byte) : Bool :=
  match sigSect b with
  | none => false
  | some x =>
    ecdsaOk (beBytes 96 (Config.programKey s.node.pkey).toNat) (sha384 (unsignedImage b)) (sectBytes b x)

/-- Check 3 (R171). -/
def State.check3 (s : State) (b : List Byte) : Option Failed :=
  let at_ := ((sections b).findIdx? (fun x => x.type == 5)).getD 0xFFFF
  if s.node.reqSig && !imgSigned b then some ⟨3, 0xFFFF, .denied⟩
  else if imgSigned b && (sigSect b).isNone then some ⟨3, 0xFFFF, .denied⟩
  else if imgSigned b && !s.signatureOk b then some ⟨3, at_, .denied⟩
  else none

/-- A directory entry by itself: its type, ID and ATTR, its bounds and its alignment (R170, R171). -/
def sectOk (b : List Byte) (x : Sect) : Bool :=
  decide (1 ≤ x.type) && decide (x.type ≤ 5) && x.off % 16 == 0 && decide (0x40 + 16 * imgNsect b ≤ x.off) &&
    decide (x.off + x.size ≤ b.length) &&
    (if x.type = 3 then
      tableId x.id &&
        (if 0x80 ≤ x.id then (bitsAt x.attr 0 3 == 1 || bitsAt x.attr 0 3 == 2 || bitsAt x.attr 0 3 == 4) && decide (x.attr < 16)
         else x.attr == 0)
    else x.id == 0 && x.attr == 0) &&
    (imgSigned b || x.type != 5)

/-- An entry agrees with the ones before it: one section of its type, or one per table ID, and no overlap (R170, R171). -/
def sectApart (b : List Byte) (i : Nat) : Bool :=
  match (sections b)[i]? with
  | none => true
  | some x =>
    ((sections b).take i).all (fun y =>
      !(x.type == y.type && (x.type != 3 || x.id == y.id)) &&
        (decide (x.off + x.size ≤ y.off) || decide (y.off + y.size ≤ x.off)))

/-- A table section has the size of R174. -/
def sectSizeOk (b : List Byte) (x : Sect) : Bool :=
  if x.type = 3 then
    match tableSize x.id (cellsOf (sectBytes b x)) with
    | some n => n == x.size
    | none => x.size % attrSize x.attr == 0
  else if x.type = 5 then x.size == 96
  else true

/-- Modes that scripts of an image lead to. -/
def scriptTargets (b : List Byte) : List Nat := (scriptEntries (typeBytes b 4)).map dirTo

/-- Tables that an image must hold (R174). -/
def requiredTables (b : List Byte) : List Nat :=
  let has := fun (t : Nat) => (manifest b).any (fun w => (claimOf w).type == t)
  [1, 2, 3] ++ (if (scriptTargets b).any (fun t => t == 5 || t == 7 || t == 8) then [4] else []) ++
    (if (tableSect b 4).isSome then [5] else []) ++ (if has 7 then [7] else []) ++ [8] ++ (if has 8 then [9] else []) ++ [0x0A]

/-- Check 4 (R170, R171, R174). -/
def check4 (b : List Byte) : Option Failed :=
  let bad := (List.range (imgNsect b)).find? (fun i =>
    match (sections b)[i]? with
    | some x => !(sectOk b x && sectApart b i && sectSizeOk b x)
    | none => false)
  match bad with
  | some i => some ⟨4, i, .illegal⟩
  | none =>
    if (sectOf b 1).isNone ∨ (sectOf b 2).isNone ∨ (sectOf b 4).isNone then some ⟨4, 0xFFFF, .illegal⟩
    else
      match (requiredTables b).find? (fun id => (tableSect b id).isNone) with
      | some id => some ⟨4, 0x8000 + id, .illegal⟩
      | none => none

/-- Sizes of the tables of an image. -/
def imageSizes (b : List Byte) : Tbl Nat :=
  (sections b).foldl (fun t x => if x.type = 3 then Tbl.set 0 t x.id x.size else t) []

def imageAttrs (b : List Byte) : Tbl (BitVec 32) :=
  (sections b).foldl (fun t x => if x.type = 3 then Tbl.set 0 t x.id (BitVec.ofNat 32 x.attr) else t) []

/-- A program of an image, in a slot of the table store. -/
def programOf (b : List Byte) (slot : Bool) : Program :=
  { bytes := b, slot := slot, entry := BitVec.ofNat 32 (imgEntry b)
    swdog := if imgSwdog b = 0 then 4096 else imgSwdog b, progver := BitVec.ofNat 16 (leAt b 0x1A 2)
    claims := claimsOf (manifest b), code := typeBytes b 2, scripts := typeBytes b 4, sizes := imageSizes b, attrs := imageAttrs b }

/-- Bytes of gleaner tables 2 to 15 (R175). -/
def progDataBytes : Nat := 1392 * 1024

/-- Check 5 (R146, R170, R175). -/
def check5 (b : List Byte) : Option Failed :=
  let code := (sections b).findIdx? (fun x => x.type == 2)
  let n := (typeBytes b 2).length
  if n % 4 ≠ 0 ∨ 131072 < n then some ⟨5, code.getD 0xFFFF, .nospace⟩
  else if imgEntry b % 4 ≠ 0 ∨ n ≤ imgEntry b then some ⟨5, code.getD 0xFFFF, .illegal⟩
  else
    match (progTables (programOf b false)).find? (fun t => decide (progDataBytes < t.2.1 + t.2.2)) with
    | some t => some ⟨5, ((sections b).findIdx? (fun x => x.type == 3 && x.id == t.1)).getD 0xFFFF, .nospace⟩
    | none => none

/-- Two claims name one resource. -/
def sameResource (c d : Claim) : Bool := c.type == d.type && c.index == d.index

/-- Check 6 (R22): the first claim that names a resource claimed before it or held by an OTP default. -/
def State.check6 (s : State) (b : List Byte) : Option Failed :=
  let ws := manifest b
  let clash := (List.range ws.length).find? (fun i =>
    let before := claimsOf (ws.take i) ++ s.node.otpClaims
    (claimsOf ((ws.drop i).take 1)).any (fun c => before.any (sameResource c)))
  clash.map (fun i => ⟨6, i, .conflict⟩)

/-- A claim of the manifest is legal: type, index, user, PARAM and reserved bits (R172, R320, R411). -/
def claimOk (w : Nat) : Bool :=
  let c := claimOf w
  let top := match c.type with
    | 1 => 4 | 2 => 16 | 3 => 32 | 4 => 2 | 5 => 1 | 6 => 8 | 7 => 4 | 8 => 4 | 9 => 8 | 10 => 4
    | _ => 0
  let role := bitsAt c.param 0 2
  bitsAt w 0 32 == 0 && decide (c.index < top) && decide (1 ≤ c.user) && decide (c.user ≤ 8) &&
    (if c.type = 10 then (role == 1 || (role == 2 && !bitAt c.param 2)) && decide (c.param < 16) else c.param == 0) &&
    !(c.type == 9 && decide (c.index < 4))

/-- A step of a mode script (R184). -/
def stepOk (bs : List Byte) (w : Nat) : Bool :=
  let cl := cmdClass w
  bs.length != 0 && scriptClass cl && listed cl (cmdSub w) true && argsOk cl (cmdSub w) (cmdArg0 w) (cmdArg1 w)

/-- The mode-script section (R184). -/
def scriptsOk (bs : List Byte) : Bool :=
  let es := scriptEntries bs
  let at_ := stepsAt bs
  let steps := (bs.length - at_) / 16
  decide (8 * (es.length + 1) ≤ bs.length) && bs.length % 8 == 0 &&
    (es.length % 2 == 1 || leAt bs (8 * (es.length + 1)) 8 == 0) &&
    allBelow es.length (fun i =>
      let e := es.getD i 0
      decide (dirFrom e ≤ 12) && decide (1 ≤ dirTo e) && decide (dirTo e ≤ 12) && bitsAt e 32 24 == 0 &&
        decide (dirFirst e + dirCount e ≤ steps) &&
        (es.take i).all (fun f => !(dirFrom f == dirFrom e && dirTo f == dirTo e))) &&
    allBelow steps (fun i => stepOk bs (leAt bs (at_ + 16 * i) 16))

/-- Fields of a section (R9, R182, R184). -/
def State.sectFieldsOk (s : State) (b : List Byte) (x : Sect) : Bool :=
  match x.type with
  | 1 => x.size % 8 == 0 && (manifest b).all claimOk
  | 3 => tableOk s.mon.on (claimsOf (manifest b)) x.id (cellsOf (sectBytes b x))
  | 4 => scriptsOk (sectBytes b x)
  | _ => true

/-- Check 7. -/
def State.check7 (s : State) (b : List Byte) : Option Failed :=
  (badSect b (s.sectFieldsOk b)).map (fun i => ⟨7, i, .illegal⟩)

/-- The first failed check of an image that has arrived whole (R182). -/
def State.loadFailure (s : State) (b : List Byte) : Option Failed :=
  if !headerOk b then some ⟨2, 0, .illegal⟩
  else
    match s.check3 b with
    | some f => some f
    | none =>
      match check4 b with
      | some f => some f
      | none =>
        match check5 b with
        | some f => some f
        | none =>
          match s.check6 b with
          | some f => some f
          | none => s.check7 b

/-! ### A load that passes (R183) -/

/-- A gleaner set up anew (R144); replies that Hayward has queued stay. -/
def Gleaner.setUp (x : Gleaner) (entry : BitVec 32) : Gleaner :=
  { Gleaner.init with pc := entry.setWidth 17, replies := x.replies }

/-- Gleaners and their memories (R144, R146): local memories, cluster data and free program data are zero, and a sheaf that a
gleaner holds goes back to the distributor. A LOAD lifts every fence (R141, R183); on exit from frost the fences stay. -/
def State.setUpGleaners (s : State) (entry : BitVec 32) (lift : Bool) : State :=
  let held := (List.range gleaners).filterMap (fun g => (s.gleaner g).sheaf)
  let s := (List.range gleaners).foldl (fun s g =>
    s.modGleaner g (fun x => { x.setUp entry with fenced := x.fenced && !lift })) s
  { s with
    core := { s.core with distrib := held ++ s.core.distrib, quarters := if lift then 0 else s.core.quarters }
    gmem := { s.gmem with bytes := [], tags := [] } }

/-- The seed maps and the slice timing of a die's band go to the die (R31). -/
def State.seedDie (s : State) (die : Fin 8) : State :=
  let off := s.bandPartOff (s.band (die + 1))
  let s := s.say die s.red.active (.atime (BitVec.ofNat 32 (numAt (s.table idSeeds) (off + 4 * die) 4)))
  (List.range 512).foldl (fun s c => s.say die s.red.active (.seedMap (Fin.ofNat 4096 (die * 512 + c)) true)) s

/-- The items of a hub's band (R31): the monitor timing waits for its rotation step. Lane presets and the scrubber rate are read
when they are used. -/
def State.seedHub (s : State) (h : Hub) : State :=
  let band := s.band (match h with
    | .a => 0
    | .b => 9)
  let t := BitVec.ofNat 32 (numAt (s.table idSeeds) (s.bandPartOff band + 0x20) 4)
  match h with
  | .a => { s with mon := { s.mon with mtimeWait := t } }
  | .b => { s with mon := { s.mon with mtimeWaitB := t } }

/-- Band seeds of every die and hub (R31, R183). -/
def State.applySeeds (s : State) : State :=
  let s := (List.range 8).foldl (fun s d => s.seedDie (Fin.ofNat 8 d)) s
  (s.seedHub .a).seedHub .b

def PortCopy.lane (c : PortCopy) (k : Nat) : Lane := Tbl.get Lane.init c.lanes k

def PortCopy.setLane (c : PortCopy) (k : Nat) (l : Lane) : PortCopy := { c with lanes := Tbl.set Lane.init c.lanes k l }

/-- A lane's presets: the entry of the table in force for the hub's band, else the built-in values (R304, R305). -/
def State.lanePreset (s : State) (h : Hub) (lane : Nat) : Lane :=
  if (s.table idPresets).isEmpty then Lane.init
  else
    let w := numAt (s.table idPresets) (16 + 768 * s.band (hubDie h) + 8 * (16 * h.idx + lane)) 8
    { Lane.init with
      pre := bitsAt w 60 4, post := bitsAt w 55 5, amp := bitsAt w 51 4, ctle := bitsAt w 47 4, dfe1 := signed 7 (bitsAt w 40 7) }

/-- The copy sets its lanes to the presets and starts DETECT (R305, R307). -/
def State.detect (s : State) (h : Hub) (p : Nat) : State :=
  let c := (s.port p).copy h
  let c := (List.range 4).foldl (fun c k => c.setLane k (s.lanePreset h (4 * p + k))) c
  (s.setPort p ((s.port p).setCopy h { c with st := .detect, rate := 0, cap := 2, markerKnown := false, badSeq := 0 })).bump
    ⟨0x07, 4, 0, h.idx + 1, p⟩

/-- Ports that the program claims begin to train; ports that it does not claim go off (R305, R307). -/
def State.claimPorts (s : State) : State :=
  (List.range 4).foldl (fun s p =>
    let x := s.port p
    if (s.holder 0x0A p).isNone then
      let off := fun (c : PortCopy) => { PortCopy.init with marker := c.marker, txMarker := c.txMarker, wired := c.wired }
      s.setPort p { x with copyA := off x.copyA, copyB := off x.copyB }
    else
      let start := fun (s : State) (h : Hub) =>
        let x := s.port p
        if (x.copy h).st = .off then
          (s.setPort p (x.setCopy h { x.copy h with wait := 1, downSaid := false, roleSaid := false })).detect h p
        else s
      start (start s .a) .b) s

/-- Default GDEPTH in µs (R209). -/
def Ring.defaultDepth (r : Ring) : Nat := 3200 * min dirSlots (r.size / 1873) / 1000

/-- The tables of a program in force (R174, R183). -/
def State.placeTables (s : State) (p : Program) : State :=
  let b := p.bytes
  let s : State := { s with tables := [] }
  let s := (sections b).foldl (fun s x => if x.type = 3 then s.setTable x.id (cellsOf (sectBytes b x)) else s) s
  s.setTable codeTable (cellsOf p.code)

/-- The loader has written every line of the table store (R213): nothing of before is left there, nor waits to be merged. -/
def State.renewStore (s : State) : State :=
  let below := fun (n : Nat) => decide (n < s.ring.storeStart)
  { s with ring := { s.ring with
      lines := s.ring.lines.filter (fun l => below l.1), merge := s.ring.merge.filter (fun e => below e.line)
      mergeQ := s.ring.mergeQ.filter (fun x => below x.1) } }

/-- A load that passes, up to its completion (R183). -/
def State.install (s : State) (b : List Byte) (gdepth : Nat) : State :=
  let s := (s.applyWaiting s.core.tableDue.length).modCore (fun c => { c with oldSkews := [] })
  let slot := match s.node.prog with
    | some p => !p.slot
    | none => false
  let p := programOf b slot
  let old3 := s.table idThreshold
  let old8 := s.table idSeeds
  let s : State := { s with
    node := { s.node with prog := some p, claims := p.claims, rtClaims := [] }
    ring := { s.ring with
      gdepth := if gdepth = 0 then s.ring.defaultDepth else gdepth
      image0 := if slot then s.ring.image0 else b, image1 := if slot then b else s.ring.image1 } }
  let s := (s.placeTables p).renewStore
  let s := (s.sendSettings old3 (s.table idThreshold)).sendControls old8 (s.table idSeeds)
  let s := s.applySeeds.setUpGleaners p.entry true
  let s := (List.range 8).foldl (fun s u => s.setTally u { s.tally u with baseRef := none, base := [] }) s
  let s := (List.range 4).foldl (fun s b => s.setBaler b { s.baler b with failed := false }) s
  let s := s.claimPorts
  let s := (s.modHubRed .a (fun x => { x with fails := [] })).modHubRed .b (fun x => { x with fails := [] })
  let s : State := { s with trig := { s.trig with margin := s.marginOf, tcmd := s.trig.tcmd.restart } }
  if s.node.mode = .selftest then s.setMode .standby else s

/-- Check 8 (R182): the first condition whose span exceeds GDEPTH, compared exactly: a coarse tick
is 0.78125 ns, so a span of n ticks and 12.8 µs exceeds G µs when 78125 n + 1280000000 > 100000000 G. -/
def State.spanWarning (s : State) (b : List Byte) : Option Nat :=
  let tooLong := fun (n : Nat) => decide (100000000 * s.ring.gdepth < 78125 * (n + 2 * s.trig.margin) + 1280000000)
  let len := fun (c : Nat) => condPre (s.condWord c 4) + condPost (s.condWord c 4)
  let streams := (scriptTargets b).contains 6
  if (s.table idDecode).isEmpty then none
  else
    (List.range s.decConds).find? (fun c => (condEn (s.condWord c 3) && tooLong (len c)) || (c == 0 && streams && tooLong (len 0)))

/-- LOAD (R182, R183). -/
def State.loadRow (s : State) (src : Src) (b : List Byte) : State :=
  s.command src clLoad 0 (fun w =>
    match s.loadFailure b with
    | some f => s.complete src f.status (f.check * 2 ^ 16 + f.detail)
    | none =>
      let s := s.install b (cmdArg0 w)
      match s.spanWarning b with
      | some c => s.complete src .warn (8 * 2 ^ 16 + c)
      | none => s.complete src .ok)

/-! ### Meanings -/

def execLoad (src : Src) (image : List Byte) (s : State) : Host.Outcome State Fault Refusal :=
  .next (s.loadRow src image)

end Sys2Proof.Machine
end

