-- ==== Sys2Proof/Machine/Pcie.lean ====
section
/-!
DEFINITION. The PCIe host interface: registers and doorbells, configuration space, links and reads, part and service delivery and
their interrupts (R194 to R196, R224, R272 to R292, R485, R486).
-/

namespace Sys2Proof.Machine

/-- Figure of PCIE (R296). -/
def figPcie (row : Nat) (q : Nat := 0) (idx : Nat := whole) (hub : Nat := 0) : Fig := ⟨0x06, row, q, hub, idx⟩

/-! ### BAR0 writes (R275 to R281, R286, R485, R486) -/

/-- BAR0 of an endpoint is served: the link is up, the device is not in D3hot, the node is neither unpowered nor TRIPPED (R275,
R295, R436). -/
def State.barServed (s : State) (h : Hub) : Bool := s.live && (s.ep h).linkUp && !(s.ep h).d3hot

/-- A BAR0 write outside the identity and status area: in SEED it is discarded and counted (R276). -/
def State.barWrite (s : State) (h : Hub) (f : State → State) : State :=
  if !s.barServed h then s
  else if s.node.mode = .seed then
    let e := s.ep h
    s.setEp h { e with seedwr := if e.seedwr = 0xFFFFFFFF then e.seedwr else e.seedwr + 1 }
  else f s

/-- The host has enabled a ring or written a doorbell (R277). -/
def State.touch (s : State) : State := { s with pcie := { s.pcie with touched := true } }

/-- SQTAIL (R195): a value at or above the ring size stops the ring with ERR. -/
def State.writeSqtail (s : State) (k v : Nat) : State :=
  let r := s.cring k
  let s := s.touch
  if r.sqSize ≤ v then s.setCring k { r with run := false, err := true } else s.setCring k { r with sqtail := v }

/-- CQHEAD (R195). -/
def State.writeCqhead (s : State) (k v : Nat) : State :=
  let r := s.cring k
  let s := s.touch
  if r.cqSize ≤ v then s.setCring k { r with run := false, err := true } else s.setCring k { r with cqhead := v }

/-- The word at 0x10 of a command ring block (R194): sizes are taken only while EN = 0, a size above 12 never. -/
def State.writeCring (s : State) (k : Nat) (v : BitVec 32) : State :=
  let r := s.cring k
  let w := v.toNat
  let size := fun (old : BitVec 4) (n : Nat) => if r.en ∨ 12 < n then old else BitVec.ofNat 4 n
  let en := bitAt w 31
  let r := { r with
    en := en, vec := BitVec.ofNat 6 (bitsAt w 8 6), cqlog := size r.cqlog (bitsAt w 4 4), sqlog := size r.sqlog (bitsAt w 0 4)
    sqhead := if en && !r.en then 0 else r.sqhead, cqtail := if en && !r.en then 0 else r.cqtail
    phase := (en && !r.en) || r.phase, run := if r.en then r.run && en else en, err := r.err && en }
  let s := if en then s.touch else s
  s.setCring k r

/-- The word at 0x10 of a data ring block (R280). -/
def State.writeDring (s : State) (k : Nat) (v : BitVec 32) : State :=
  let r := s.dring k
  let w := v.toNat
  let en := bitAt w 31
  let start := en && !r.en
  let r := { r with
    en := en, compact := if r.en then r.compact else bitAt w 30, ro := bitAt w 29, vec := BitVec.ofNat 6 (bitsAt w 16 6)
    elog := if r.en ∨ 11 < bitsAt w 12 4 then r.elog else BitVec.ofNat 4 (bitsAt w 12 4)
    dlog := if r.en ∨ 12 < bitsAt w 8 4 then r.dlog else BitVec.ofNat 4 (bitsAt w 8 4)
    icnt := BitVec.ofNat 8 (bitsAt w 0 8), run := if r.en then r.run && en else en, err := r.err && en, stall := r.stall && en }
  let r := if start then { r with dprod := 0, dcons := 0, etail := 0, econs := 0, seqnext := 0, since := 0, timer := none } else r
  let s := if en then s.touch else s
  s.setDring k r

/-- Units of a data buffer and entries of an entry ring (R280, R281). -/
def DataRing.units (r : DataRing) : Nat := 2 ^ (r.dlog.toNat + 14)
def DataRing.entries (r : DataRing) : Nat := 2 ^ (r.elog.toNat + 4)

/-- Units of the data buffer in use (R281). -/
def DataRing.fill (r : DataRing) : Nat := (r.dprod - r.dcons).toNat

/-- DCONS (R281): a value that makes the fill exceed the buffer stops the ring with ERR. -/
def State.writeDcons (s : State) (k : Nat) (v : BitVec 32) : State :=
  let r := s.dring k
  let s := s.touch
  if r.units < (r.dprod - v).toNat then s.setDring k { r with run := false, err := true } else s.setDring k { r with dcons := v }

/-- ECONS (R281). -/
def State.writeEcons (s : State) (k v : Nat) : State :=
  let r := s.dring k
  let s := s.touch
  if r.entries ≤ v then s.setDring k { r with run := false, err := true } else s.setDring k { r with econs := v }

/-- Half of a 64-bit register written by a 32-bit access: 0 low, 1 high. -/
def setHalf (x : BitVec 64) (hi : Nat) (v : BitVec 32) : BitVec 64 :=
  if hi = 0 then BitVec.ofNat 64 (bitsAt x.toNat 32 32 * 2 ^ 32 + v.toNat)
  else BitVec.ofNat 64 (v.toNat * 2 ^ 32 + bitsAt x.toNat 0 32)

/-- Write half of the ring select register: nibbles above 6 keep their value (R286). -/
def selectHalf (x : BitVec 64) (hi : Nat) (v : BitVec 32) : BitVec 64 :=
  let old := bitsAt x.toNat (32 * hi) 32
  let new := (List.range 8).foldl (fun a i =>
    let n := bitsAt v.toNat (4 * i) 4
    a + (if 6 < n then bitsAt old (4 * i) 4 else n) * 2 ^ (4 * i)) 0
  setHalf x hi (BitVec.ofNat 32 new)

/-- A word of a command ring control block (R194, R195). -/
def State.cringWord (s : State) (k off : Nat) (v : BitVec 32) : State :=
  let r := s.cring k
  match off with
  | 0x00 | 0x04 => if r.en then s else s.setCring k { r with sqbase := setHalf r.sqbase (off / 4) v }
  | 0x08 | 0x0C => if r.en then s else s.setCring k { r with cqbase := setHalf r.cqbase (off / 4 - 2) v }
  | 0x10 => s.writeCring k v
  | 0x14 => s.writeSqtail k (bitsAt v.toNat 0 16)
  | 0x18 => s.writeCqhead k (bitsAt v.toNat 0 16)
  | _ => s

/-- A word of a data ring control block (R280, R281). -/
def State.dringWord (s : State) (k off : Nat) (v : BitVec 32) : State :=
  let r := s.dring k
  match off with
  | 0x00 | 0x04 => if r.en then s else s.setDring k { r with dbase := setHalf r.dbase (off / 4) v }
  | 0x08 | 0x0C => if r.en then s else s.setDring k { r with ebase := setHalf r.ebase (off / 4 - 2) v }
  | 0x10 => s.writeDring k v
  | 0x14 => s.setDring k { r with imod := v.setWidth 16 }
  | 0x18 => s.writeDcons k v
  | 0x1C => s.writeEcons k (bitsAt v.toNat 0 16)
  | _ => s

/-- What a write to a word of the window sets in it (R224). -/
def Window.set (w : Window) (off : Nat) (v : BitVec 32) : Window :=
  let n := v.toNat
  if off = 0 then
    { w with
      target := if bitsAt n 28 2 ≤ 1 then BitVec.ofNat 2 (bitsAt n 28 2) else w.target, lineNo := BitVec.ofNat 10 (bitsAt n 0 10) }
  else if off = 8 then { w with swpar := bitAt n 0 }
  else if 0x10 ≤ off ∧ off < 0x88 then
    let p := 8 * (off - 0x10)
    { w with data := BitVec.ofNat 960 (w.data.toNat - bitsAt w.data.toNat p 32 * 2 ^ p + n * 2 ^ p) }
  else if off = 0x88 then { w with mark := v }
  else if off = 0x8C then { w with crc := v }
  else w

/-- A word of the split-write window, written in both hubs at the same step (R224, R225). -/
def State.windowWord (s : State) (h : Hub) (off : Nat) (v : BitVec 32) : State :=
  if !s.windowOpen then s
  else
    let s := s.modWindows (fun _ w => w.set off v)
    let s := if off = 0 ∧ bitAt v.toNat 31 then s.windowGo h else s
    if off = 0 ∧ bitAt v.toNat 30 then s.windowRd h 0 else s

/-- A write of ones to the event cause register, in both hubs (R486). -/
def State.clearCause (s : State) (v : BitVec 32) : State :=
  { s with pcie := { s.pcie with cause := s.pcie.cause &&& ~~~ (v.setWidth 4) } }

/-- A word of the identity and status area (R279, R485, R486). -/
def State.statusWord (s : State) (h : Hub) (off : Nat) (v : BitVec 32) : State :=
  match off with
  | 0x28 => s.clearCause v
  | 0x2C => { s with pcie := { s.pcie with mask := v.setWidth 4 } }
  | 0x34 => s.setEp h { s.ep h with scratch := v }
  | _ => s

/-- A 32-bit word of BAR0 (R278). -/
def State.wordWrite (s : State) (h : Hub) (off : Nat) (v : BitVec 32) : State :=
  if off < 0x1000 then s.statusWord h off v
  else if off < 0x1080 then s.cringWord ((off - 0x1000) / 0x20) ((off - 0x1000) % 0x20) v
  else if 0x1100 ≤ off ∧ off < 0x1300 then s.dringWord ((off - 0x1100) / 0x40) ((off - 0x1100) % 0x40) v
  else if off = 0x1300 ∨ off = 0x1304 then
    { s with pcie := { s.pcie with select := selectHalf s.pcie.select ((off - 0x1300) / 4) v } }
  else if 0x2000 ≤ off ∧ off < 0x2200 then s.windowWord h (off - 0x2000) v
  else s

/-- A vector of an endpoint may send (R288): MSI-X is enabled, and neither the function nor the vector is masked. -/
def Endpoint.mayInterrupt (e : Endpoint) (v : Nat) : Bool :=
  e.msix && !e.masked && !(Tbl.get vectorAtReset e.vectors v).getLsbD 96

/-- Messages that were pending for vectors of an endpoint that may send now (R288). -/
def State.sendPending (s : State) (h : Hub) : State :=
  (List.range 64).foldl (fun s v =>
    let e := s.ep h
    if e.pba.getLsbD v && e.mayInterrupt v then
      (s.setEp h { e with pba := e.pba &&& ~~~ BitVec.ofNat 64 (2 ^ v) }).emit (.msix h v)
    else s) s

/-- A word of BAR2: one of the MSI-X table; the Pending Bit Array is read only (R274, R288). The table is the endpoint's own and is
served in SEED too (R276). -/
def State.tableWord (s : State) (h : Hub) (off : Nat) (v : BitVec 32) : State :=
  let e := s.ep h
  let i := off / 16
  let p := 32 * (off % 16 / 4)
  let old := (Tbl.get vectorAtReset e.vectors i).toNat
  if off < 0x400 then
    (s.setEp h { e with
      vectors := Tbl.set vectorAtReset e.vectors i (BitVec.ofNat 128 (old - bitsAt old p 32 * 2 ^ p + v.toNat * 2 ^ p)) }).sendPending h
  else s

/-- REGISTER_WRITE (R276, R279): a 32-bit access, or a 64-bit one aligned to 8 bytes; a word with a byte not enabled is ignored.
DESIGN CHOICE: offset 0x1_0000 + n is offset n of BAR2 (log 92). -/
def State.registerWrite (s : State) (h : Hub) (off : Nat) (v : BitVec 64) (wide full : Bool) : State :=
  let lo := v.setWidth 32
  let hi := (v >>> 32).setWidth 32
  let write := fun (s : State) =>
    if !full || off % 4 != 0 || (wide && off % 8 != 0) then s
    else if wide then (s.wordWrite h off lo).wordWrite h (off + 4) hi
    else s.wordWrite h off lo
  let table := fun (s : State) =>
    if !full || off % 4 != 0 || (wide && off % 8 != 0) then s
    else if wide then (s.tableWord h (off - 0x10000) lo).tableWord h (off + 4 - 0x10000) hi
    else s.tableWord h (off - 0x10000) lo
  if off < 0x1000 then s.when (s.barServed h) write
  else if off < 0x10000 then s.barWrite h write
  else s.when (s.barServed h) table

/-- What an endpoint answers to a read leaves at once (R279). -/
def State.answer (s : State) (o : Out) : State := { s with pcie := { s.pcie with out := s.pcie.out ++ [o] } }

/-- SEEDWR_READ (R486). -/
def State.seedwrRead (s : State) (h : Hub) : State :=
  s.when (s.barServed h) (fun s =>
    let e := s.ep h
    (s.answer (.read h 0x30 (e.seedwr.setWidth 64))).setEp h { e with seedwr := 0 })

/-- STEP_LO_READ (R485): a 32-bit read latches the upper bits; a 64-bit read returns both. -/
def State.stepLoRead (s : State) (h : Hub) (wide : Bool) : State :=
  s.when (s.barServed h) (fun s =>
    let n := s.clock.step
    if wide then s.answer (.read h 0x38 (BitVec.ofNat 64 n))
    else
      (s.answer (.read h 0x38 (BitVec.ofNat 64 (n % 2 ^ 32)))).setEp h
        { s.ep h with stepHi := BitVec.ofNat 32 (n >>> 32) })

/-! ### Configuration space (R272 to R275, R277, R295) -/

/-- A register of the header that R273 and R274 give, by dword; none for the rest. -/
def State.cfgHeader (s : State) (h : Hub) (d : Nat) : Option Nat :=
  let w := fun (i : Nat) => (Tbl.get 0 (s.ep h).cfg i).toNat
  match d with
  | 0 => some ((match h with
      | .a => 0x4096
      | .b => 0x4097) * 2 ^ 16 + 0x1F3B)
  | 2 => some (0x11800002)
  | 4 => some (bitsAt (w 4) 16 16 * 2 ^ 16 + 4)
  | 5 => some (w 5)
  | 6 => some (bitsAt (w 6) 12 20 * 2 ^ 12 + 4)
  | 7 => some (w 7)
  | 8 | 9 => some 0
  | 11 => some (s.node.ssid.toNat * 2 ^ 16 + s.node.ssvid.toNat)
  | _ => none

/-- A write to configuration space: Bus Master Enable, the D-state, MSI-X enable and ASPM act (R277, R288, R295). -/
def Endpoint.configure (e : Endpoint) (reg : Nat) (v : BitVec 32) : Endpoint :=
  let e := { e with cfg := Tbl.set 0 e.cfg (reg / 4) v }
  let n := v.toNat
  let e := if reg = 4 then { e with bme := bitAt n 2 } else e
  let e := if reg = Config.capOffset 0 + 4 then { e with d3hot := bitsAt n 0 2 == 3 } else e
  let e := if reg = Config.capOffset 1 then { e with msix := bitAt n 31, masked := bitAt n 30 } else e
  let e := if reg = Config.capOffset 2 + 0x10 then { e with aspmL1 := bitAt n 1 } else e
  if reg = Config.capOffset 3 + 8 then { e with aspmL12 := bitAt n 2 } else e

/-- CONFIGURATION_REQUEST (R273 to R275): retry status in the first 100 ms; else a write acts, and a read answers the header of
R273 and R274 or a value that the manual does not give. -/
def State.configRequest (s : State) (h : Hub) (write : Bool) (reg : Nat) (v : BitVec 32) (early : Bool) : State :=
  let e := s.ep h
  if !s.node.pwrgd || s.node.tripped || !e.perst || !e.linkUp then s
  else if early then s.answer (.retry h)
  else if write then (s.setEp h (e.configure (reg / 4 * 4) v)).sendPending h
  else
    match s.cfgHeader h (reg / 4) with
    | some n => s.answer (.read h (0x10000 + reg / 4 * 4) (BitVec.ofNat 64 n))
    | none =>
      let r := s.takeFree
      r.2.answer (.read h (0x10000 + reg / 4 * 4) (BitVec.ofNat 64 (r.1 % 2 ^ 32)))

/-! ### Links (R275, R277, R362) -/

/-- The link of an endpoint goes down: a class-P local error once the path has been up (R277, R362). -/
def State.linkDown (s : State) (h : Hub) : State :=
  let e := s.ep h
  if !e.linkUp then s
  else
    let s := s.setEp h { e with linkUp := false, lstate := 0 }
    if e.wired then (s.localErr h .pciedown).post .pciedown [] (some h) else s

/-- A fundamental or hot reset clears the endpoint's configuration space, link state and MSI-X table (R275, R486). -/
def Endpoint.clear (e : Endpoint) : Endpoint :=
  { Endpoint.init with
    perst := e.perst, wired := e.wired, off := e.off, seedwr := e.seedwr, scratch := e.scratch, stepHi := e.stepHi, cause := e.cause }

/-- PERST (R275): the input rises, or a hot reset arrives on the link. -/
def State.perstRow (s : State) (h : Hub) (hot : Bool) : State :=
  if s.node.tripped || !s.node.pwrgd then s
  else if hot then
    s.when (s.ep h).linkUp (fun s =>
      let s := s.linkDown h
      s.setEp h (s.ep h).clear)
  else s.when (!(s.ep h).perst) (fun s => s.setEp h { (s.ep h).clear with perst := true })

/-- PCIEDOWN (R277): Data Link Layer down, or PERST falls, which resets the endpoint. -/
def State.pcieDownRow (s : State) (h : Hub) (perstFell : Bool) : State :=
  let s := s.linkDown h
  if perstFell then s.setEp h { (s.ep h).clear with perst := false } else s

/-- PCIE_LINK_UP (R275, R362): training reaches L0. In simplex hub B's endpoint does not train, in SEED either (R11, R378). -/
def State.pcieLinkUp (s : State) (h : Hub) (speed width : Nat) : State :=
  let e := s.ep h
  s.when (s.node.pwrgd && !s.node.tripped && e.perst && !e.linkUp && !e.off && !(s.node.simplex && h == .b)) (fun s =>
    s.setEp h { e with linkUp := true, wired := true, speed := speed, width := width })

/-! ### Reads (R291) -/

/-- A command whose host buffer is being read. -/
def State.reading (s : State) (src : Src) : Bool :=
  match s.cmdOf src with
  | some c => readsHost c.word.toNat && !s.core.tableDue.any (fun d => d.src == some src)
  | none => false

/-- Bytes of a command's buffer have arrived. -/
def State.tookBytes (s : State) (src : Src) (n : Nat) : State :=
  let more := fun (c : Option Cmd) => c.map (fun c => { c with bytes := c.bytes + n })
  match src with
  | .ring k => s.setCring k { s.cring k with cmd := more (s.cring k).cmd }
  | .script => { s with node := { s.node with script := s.node.script.map (fun x => { x with cmd := more x.cmd }) } }

/-- A DMA error of a command's buffer, of a kind (R182, R196, R291): 0 timeout, 1 UR or CA, 2 EP, 3 ECRC. -/
def State.dmaError (s : State) (src : Src) (kind : Nat) : State :=
  let h := s.red.active
  let e := s.ep h
  let s := (s.bump (figPcie 3 kind whole (h.idx + 1))).setEp h { e with aer := e.aer + 1 }
  s.complete src .fault (if s.runs src clLoad then 2 ^ 16 else 0)

/-- COMPLETION_TLP (R291). -/
def State.completionTlp (s : State) (src : Src) (bytes : Nat) (st : CplStatus) (ep ecrcBad : Bool) : State :=
  if !s.live || !s.reading src then s
  else if ecrcBad then s.dmaError src 3
  else if st ≠ .success then s.dmaError src 1
  else if ep then s.dmaError src 2
  else s.tookBytes src bytes

/-- PCIE_ACK (R292): the steps up to one are acknowledged and leave the replay buffer. -/
def State.pcieAck (s : State) (step : Nat) : State :=
  s.when s.live (fun s =>
    { s with pcie := { s.pcie with
        acked := max s.pcie.acked step, replay := s.pcie.replay.filter (fun r => decide (step < r.1)) } })

/-! ### Delivery (R282 to R289) -/

/-- An entry of an entry ring (R283). -/
def entryBytes (seq dstart dlen trigno part flags stat lost : Nat) (phase : Bool) : List Byte :=
  leBytes 8 seq ++ leBytes 4 dstart ++ leBytes 4 dlen ++ leBytes 4 trigno ++ leBytes 1 part ++ leBytes 1 0 ++ leBytes 2 flags ++
    leBytes 8 (stat % 4 + lost % 65536 * 2 ^ 16 + b2n phase * 2 ^ 63)

/-- Write an entry and advance over `units` of data (R282, R283, R289). -/
def State.writeEntryAt (s : State) (k units dlen trigno part flags stat lost : Nat) : State :=
  let r := s.dring k
  let phase := !bitAt r.seqnext.toNat (r.elog.toNat + 4)
  let e := entryBytes r.seqnext.toNat r.dprod.toNat dlen trigno part flags stat lost phase
  let s := s.emit (.write (r.ebase.toNat / 4096 * 4096 + 32 * r.etail) e)
  s.setDring k { r with
    dprod := r.dprod + BitVec.ofNat 32 units, etail := (r.etail + 1) % r.entries, seqnext := r.seqnext + 1, since := r.since + 1
    timer := some (r.timer.getD s.clock.step), stall := false }

/-- Write bytes from position DPROD, wrapping at the end of the buffer (R281, R282). -/
def State.writeData (s : State) (k : Nat) (bs : List Byte) : State :=
  let r := s.dring k
  let base := r.dbase.toNat / 4096 * 4096
  let pos := r.dprod.toNat % r.units
  let room := 64 * (r.units - pos)
  let s := s.emit (.data (base + 64 * pos) (bs.take room) r.ro)
  if room < bs.length then s.emit (.data base (bs.drop room) r.ro) else s

/-- A free entry slot (R281). -/
def DataRing.slotFree (r : DataRing) : Bool := (r.etail + r.entries - r.econs) % r.entries + 1 != r.entries

/-- The next part waits for room (R280, R284). -/
def State.stallRing (s : State) (k : Nat) : State := s.setDring k { s.dring k with stall := true }

/-- PART_DELIVERY (R282, R284, R287). -/
def State.partDelivery (s : State) : State :=
  match s.nextPart 0 with
  | none => s
  | some p =>
    let k := p.ring
    let r := s.dring k
    if !s.live || !s.mayMaster || s.partBusy p 0 then s
    else if !r.run then (s.bump (figPcie 4 2 k)).partTaken 0
    else
      let b := s.partBytes p 0 r.compact
      let units := (b.1.length + 63) / 64
      let flags := b.2.toNat
      if r.units - 1 < units then
        if r.slotFree then
          ((s.writeEntryAt k 0 0 p.num.toNat p.part flags 1 0).bump (figPcie 4 1 k)).partTaken 0
        else s.stallRing k
      else if r.slotFree && decide (units ≤ r.units - r.fill) then
        (((s.writeData k b.1).writeEntryAt k units b.1.length p.num.toNat p.part flags 0 0).bump (figPcie 4 0 k)).partTaken 0
      else s.stallRing k

/-- Service records that wait for ring 7 (R285). -/
def serviceCap : Nat := 65536

/-- Service records of a released slice go to ring 7; beyond the limit, and while the ring does not run, they are dropped and
counted (R285). -/
def State.addService (s : State) (seq : Nat) (rs : List Rec128) : State :=
  let r := s.dring 7
  let waiting := (s.pcie.svc.map (fun x => x.2.length)).sum
  let keep := if r.run then rs.take (serviceCap - waiting) else []
  let lost := rs.length - keep.length
  let s := (s.bump (figPcie 5) lost).setDring 7 { r with lost := r.lost + lost }
  if keep.isEmpty then s else { s with pcie := { s.pcie with svc := s.pcie.svc ++ [(seq, keep)] } }

/-- SERVICE_DELIVERY (R283, R285). -/
def State.serviceDelivery (s : State) : State :=
  match s.pcie.svc with
  | [] => s
  | (seq, rs) :: rest =>
    let r := s.dring 7
    if !s.live || !s.mayMaster || !r.run then s
    else
      let bs := rs.flatMap (fun x => leBytes 16 x.toNat)
      let units := (bs.length + 63) / 64
      if r.slotFree && decide (units ≤ r.units - r.fill) then
        let s := (s.writeData 7 bs).writeEntryAt 7 units bs.length seq 0 0 (if 0 < r.lost then 2 else 0) (min r.lost 0xFFFF)
        let s := s.setDring 7 { s.dring 7 with lost := 0 }
        { s with pcie := { s.pcie with svc := rest } }
      else s.stallRing 7

/-- Announce the entries of a ring (R289). -/
def State.announceEntries (s : State) (k : Nat) : State :=
  let r := s.dring k
  (s.setDring k { r with since := 0, timer := none }).msix r.vec.toNat

/-- Rings whose entries reach ICNT are announced at a step boundary (R289). -/
def State.checkCounts (s : State) : State :=
  (List.range 8).foldl (fun s k =>
    let r := s.dring k
    if decide (0 < r.since) && decide (max 1 r.icnt.toNat ≤ r.since) then s.announceEntries k else s) s

/-! ### TLPs (R288, R290) -/

/-- Max Payload Size and Max Read Request Size by Device Control bits 7:5 and 14:12, within what R272 supports. -/
def Endpoint.mps (e : Endpoint) : Nat := min 512 (128 * 2 ^ bitsAt (Tbl.get 0 e.cfg ((Config.capOffset 2 + 8) / 4)).toNat 5 3)
def Endpoint.mrrs (e : Endpoint) : Nat := min 4096 (128 * 2 ^ bitsAt (Tbl.get 0 e.cfg ((Config.capOffset 2 + 8) / 4)).toNat 12 3)

/-- A stretch of memory cut at the multiples of a size, as addresses and lengths (R290): sizes divide 4 KiB, so that no piece crosses
a 4 KiB boundary. -/
def cutStretch (size : Nat) : Nat → Nat → Nat → List (Nat × Nat)
  | 0, _, _ => []
  | f + 1, a, n =>
    if n = 0 then []
    else
      let k := min n (size - a % size)
      (a, k) :: cutStretch size f (a + k) (n - k)

/-- The TLPs that carry an output of PCIe, in their order (R290). -/
def Endpoint.tlps (e : Endpoint) : Out → List Out
  | .write a bs => (cutStretch e.mps bs.length a bs.length).map (fun c => .write c.1 ((bs.drop (c.1 - a)).take c.2))
  | .data a bs ro => (cutStretch e.mps bs.length a bs.length).map (fun c => .data c.1 ((bs.drop (c.1 - a)).take c.2) ro)
  | .readReq a n => if n = 0 then [.readReq a 0] else (cutStretch e.mrrs n a n).map (fun c => .readReq c.1 c.2)
  | o => [o]

/-- An interrupt message that may not be sent is pending, or, with MSI-X off, is none (R288). -/
def State.holdMessage (s : State) (h : Hub) (v : Nat) : State :=
  let e := s.ep h
  if e.msix then s.setEp h { e with pba := e.pba ||| BitVec.ofNat 64 (2 ^ v) } else s

/-! ### Meanings -/

def execSqtail (h : Hub) (ring : Fin 4) (value : BitVec 16) (s : State) : Host.Outcome State Fault Refusal :=
  .next (s.barWrite h (fun s => s.writeSqtail ring value.toNat))

def execCqhead (h : Hub) (ring : Fin 4) (value : BitVec 16) (s : State) : Host.Outcome State Fault Refusal :=
  .next (s.barWrite h (fun s => s.writeCqhead ring value.toNat))

def execCommandRingEnable (h : Hub) (ring : Fin 4) (value : BitVec 32) (s : State) : Host.Outcome State Fault Refusal :=
  .next (s.barWrite h (fun s => s.writeCring ring value))

def execDataRingEnable (h : Hub) (ring : Fin 8) (value : BitVec 32) (s : State) : Host.Outcome State Fault Refusal :=
  .next (s.barWrite h (fun s => s.writeDring ring value))

def execDcons (h : Hub) (ring : Fin 8) (value : BitVec 32) (s : State) : Host.Outcome State Fault Refusal :=
  .next (s.barWrite h (fun s => s.writeDcons ring value))

def execEcons (h : Hub) (ring : Fin 8) (value : BitVec 16) (s : State) : Host.Outcome State Fault Refusal :=
  .next (s.barWrite h (fun s => s.writeEcons ring value.toNat))

def execRegisterWrite (h : Hub) (off : BitVec 17) (value : BitVec 64) (wide full : Bool) (s : State) :
    Host.Outcome State Fault Refusal :=
  .next (s.registerWrite h off.toNat value wide full)

def execCauseClear (h : Hub) (value : BitVec 32) (s : State) : Host.Outcome State Fault Refusal :=
  .next (s.when (s.barServed h) (fun s => s.clearCause value))

def execSeedwrRead (h : Hub) (s : State) : Host.Outcome State Fault Refusal := .next (s.seedwrRead h)

def execStepLoRead (h : Hub) (wide : Bool) (s : State) : Host.Outcome State Fault Refusal := .next (s.stepLoRead h wide)

def execConfigurationRequest (h : Hub) (write : Bool) (reg : BitVec 12) (value : BitVec 32) (early : Bool) (s : State) :
    Host.Outcome State Fault Refusal :=
  .next (s.configRequest h write reg.toNat value early)

def execPerst (h : Hub) (hot : Bool) (s : State) : Host.Outcome State Fault Refusal := .next (s.perstRow h hot)

def execPciedown (h : Hub) (perstFell : Bool) (s : State) : Host.Outcome State Fault Refusal :=
  .next (s.pcieDownRow h perstFell)

def execPcieLinkUp (h : Hub) (speed width : Nat) (s : State) : Host.Outcome State Fault Refusal :=
  .next (s.pcieLinkUp h speed width)

def execCompletionTlp (src : Src) (bytes : Nat) (status : CplStatus) (ep ecrcBad : Bool) (s : State) :
    Host.Outcome State Fault Refusal :=
  .next (s.completionTlp src bytes status ep ecrcBad)

def execCompletionTimeout (src : Src) (s : State) : Host.Outcome State Fault Refusal :=
  .next (s.when (s.live && s.reading src) (fun s => s.dmaError src 0))

def execPcieAck (step : Nat) (s : State) : Host.Outcome State Fault Refusal := .next (s.pcieAck step)

def execPartDelivery (s : State) : Host.Outcome State Fault Refusal := .next s.partDelivery

def execServiceDelivery (s : State) : Host.Outcome State Fault Refusal := .next s.serviceDelivery

/-- The moderation delay of a ring in hub core cycles: IMOD µs, 0 giving 100 (R280, R289). -/
def DataRing.delay (r : DataRing) : Nat := (if r.imod = 0 then 100 else r.imod.toNat) * 1200

/-- The moderation timer of a ring has run out at the step boundary in progress (R289): it counts from the first entry since the last
message, written somewhere in a step of 256 cycles. -/
def State.delayOver (s : State) (k : Nat) : Bool :=
  let r := s.dring k
  match r.timer with
  | some t => decide (0 < r.since) && decide (t * 256 + r.delay ≤ (s.clock.step + 1) * 256)
  | none => false

/-- IMOD_EXPIRY (R289). -/
def execImodExpiry (ring : Fin 8) (s : State) : Host.Outcome State Fault Refusal :=
  .next (s.when (s.live && s.delayOver ring) (fun s => s.announceEntries ring))

end Sys2Proof.Machine
end

