-- ==== Sys2Proof/Machine/Balers.lean ====
section
/-!
DEFINITION. The balers: the delta transform, the reading of a DEFLATE stream, the frame, job starts, flushes and job ends (R251
to R270).
-/

namespace Sys2Proof.Machine

/-! ### The delta transform (R256, R257) -/

/-- An operation word of a profile. -/
def State.profOp (s : State) (p i : Nat) : Nat := numAt (s.table idDelta) (16 + 144 * p + 16 + 8 * i) 8

/-- One operation applied to a record, given the previous record of its kind. -/
def applyOp (op prev r t : Nat) : Nat :=
  let pos := bitsAt op 55 7
  let len := bitsAt op 48 7 + 1
  let f := bitsAt r pos len
  let p := bitsAt prev pos len
  let v := if bitsAt op 62 2 = 1 then (f + 2 ^ len - p) % 2 ^ len else Nat.xor f p
  t - bitsAt t pos len * 2 ^ pos + v * 2 ^ pos

/-- The forward transform of records in input order; `prev` is keyed by kind. -/
def transform (form : Bool) (ops : List Nat) : Tbl Nat → List Nat → List Nat
  | _, [] => []
  | prev, r :: rs =>
    let k := if form then 0 else bitsAt r 124 4
    let t := ops.foldl (fun t op => if bitAt (bitsAt op 32 16) k then applyOp op (Tbl.get 0 prev k) r t else t) r
    t :: transform form ops (Tbl.set 0 prev k r) rs

/-! ### Reading a DEFLATE stream (R258, RFC 1951) -/

/-- A number of n bits, the first read least significant. -/
def takeBits : Nat → List Bool → Option (Nat × List Bool)
  | 0, bs => some (0, bs)
  | _ + 1, [] => none
  | n + 1, b :: bs => (takeBits n bs).map (fun r => (b2n b + 2 * r.1, r.2))

/-- A Huffman code of n bits, the first read most significant, appended to a prefix. -/
def takeCode : Nat → Nat → List Bool → Option (Nat × List Bool)
  | 0, c, bs => some (c, bs)
  | _ + 1, _, [] => none
  | n + 1, c, b :: bs => takeCode n (2 * c + b2n b) bs

/-- A literal or length symbol of the fixed code. -/
def takeSymbol (bs : List Bool) : Option (Nat × List Bool) :=
  match takeCode 7 0 bs with
  | none => none
  | some (c, r) =>
    if c < 24 then some (256 + c, r)
    else
      match takeCode 1 c r with
      | none => none
      | some (d, r) =>
        if d < 192 then some (d - 48, r)
        else if d < 200 then some (d + 88, r)
        else (takeCode 1 d r).map (fun x => (x.1 - 256, x.2))

/-- Base and extra bits of a length symbol 257 to 285. -/
def lengthOf (sym : Nat) : Option (Nat × Nat) :=
  if sym < 257 ∨ 285 < sym then none
  else if sym = 285 then some (258, 0)
  else
    let i := sym - 257
    if i < 8 then some (3 + i, 0)
    else
      let e := i / 4 - 1
      some (3 + (4 + i % 4) * 2 ^ e, e)

/-- Base and extra bits of a distance symbol 0 to 29. -/
def distanceOf (sym : Nat) : Option (Nat × Nat) :=
  if 29 < sym then none
  else if sym < 4 then some (1 + sym, 0)
  else
    let e := sym / 2 - 1
    some (1 + (2 + sym % 2) * 2 ^ e, e)

/-- Copy n bytes from a distance back; the output is held last byte first. -/
def copyBack (dist : Nat) : Nat → List Byte → List Byte
  | 0, out => out
  | n + 1, out => copyBack dist n (out.getD (dist - 1) 0 :: out)

/-- The body of a fixed-Huffman block up to its end symbol; a distance does not reach beyond the history, which begins after the
first `past` bytes of the output (R258, R261). -/
def inflateFixed (past : Nat) : Nat → List Bool → List Byte → Option (List Bool × List Byte)
  | 0, _, _ => none
  | fuel + 1, bs, out =>
    match takeSymbol bs with
    | none => none
    | some (sym, bs) =>
      if sym < 256 then inflateFixed past fuel bs (BitVec.ofNat 8 sym :: out)
      else if sym = 256 then some (bs, out)
      else
        match lengthOf sym with
        | none => none
        | some (base, ex) =>
          match takeBits ex bs with
          | none => none
          | some (x, bs) =>
            match takeCode 5 0 bs with
            | none => none
            | some (ds, bs) =>
              match distanceOf ds with
              | none => none
              | some (db, de) =>
                match takeBits de bs with
                | none => none
                | some (y, bs) =>
                  let dist := db + y
                  if dist ≤ 4096 ∧ past + dist ≤ out.length then inflateFixed past fuel bs (copyBack dist (base + x) out) else none

/-- The bytes of a stored block. -/
def inflateStored : Nat → List Bool → List Byte → Option (List Bool × List Byte)
  | 0, bs, out => some (bs, out)
  | n + 1, bs, out =>
    match takeBits 8 bs with
    | none => none
    | some (b, bs) => inflateStored n bs (BitVec.ofNat 8 b :: out)

/-- A block of a stream: whether it is stored, and the output length and the bit position at its end. -/
structure BlockEnd where
  stored : Bool
  final  : Bool
  start  : Nat
  stop   : Nat
  bitPos : Nat
  deriving DecidableEq, Repr

/-- A stream as read: its blocks, its output, and whether its last block came and nothing but zero bits of its last byte
follow. -/
structure Inflated where
  blocks : List BlockEnd
  out    : List Byte
  whole  : Bool
  deriving DecidableEq, Repr

/-- Read the blocks of a stream of `total` bits; `bs` is what is left and `out` the output so far, last byte first. Independent blocks
each start with an empty history (R261). -/
def inflateBlocks (indep : Bool) (total : Nat) : Nat → List Bool → List Byte → List BlockEnd → Inflated
  | 0, _, out, acc => ⟨acc.reverse, out.reverse, false⟩
  | fuel + 1, bs, out, acc =>
    let stop : Inflated := ⟨acc.reverse, out.reverse, false⟩
    match takeBits 3 bs with
    | none => stop
    | some (h, bs) =>
      let fin := h % 2 == 1
      let body : Option (List Bool × List Byte) :=
        if h / 2 = 0 then
          let bs := bs.drop (bs.length % 8)
          match takeBits 16 bs with
          | none => none
          | some (n, bs) =>
            match takeBits 16 bs with
            | none => none
            | some (m, bs) => if n + m = 65535 then inflateStored n bs out else none
        else if h / 2 = 1 then inflateFixed (if indep then out.length else 0) bs.length bs out
        else none
      match body with
      | none => stop
      | some (bs, out') =>
        let acc := ⟨h / 2 == 0, fin, out.length, out'.length, total - bs.length⟩ :: acc
        if fin then ⟨acc.reverse, out'.reverse, decide (bs.length < 8) && bs.all (!·)⟩
        else inflateBlocks indep total fuel bs out' acc

/-- The bits of bytes, each least significant first. -/
def bitsOf (bs : List Byte) : List Bool :=
  bs.flatMap (fun b => (List.range 8).map (fun i => b.getLsbD i))

/-- Read a stream. -/
def inflate (indep : Bool) (bs : List Byte) : Inflated :=
  let l := bitsOf bs
  inflateBlocks indep l.length l.length l [] []

/-! ### Blocks, sync points and index entries (R259 to R263) -/

/-- Bytes of one record under a form. -/
def recBytes (form : Bool) : Nat := if form then 8 else 16

/-- The first byte at or after a bit position. -/
def byteUp (bits : Nat) : Nat := (bits + 7) / 8

/-- An empty stored block, as cuts write it. -/
def BlockEnd.empty (b : BlockEnd) : Bool := b.stored && b.start == b.stop

/-- An end that the rules give a block of the input: the input bytes up to it, and whether a flush made it (R259 to R261). -/
structure Cut where
  stop    : Nat
  flushed : Bool
  deriving DecidableEq, Repr

/-- Block ends in a stretch of input from `a` to `z`: after every `step` bytes, and at its end. -/
def stretchCuts (step : Nat) (flushed : Bool) : Nat → Nat → Nat → List Cut
  | 0, _, z => [⟨z, flushed⟩]
  | f + 1, a, z => if a + step < z then ⟨a + step, false⟩ :: stretchCuts step flushed f (a + step) z else [⟨z, flushed⟩]

/-- Block ends of an input of `n` bytes with sync points at the positions given in rising order (R259 to R261). -/
def blockCuts (step n : Nat) : Nat → List Nat → List Cut
  | a, [] => stretchCuts step false n a n
  | a, p :: l => stretchCuts step true n a p ++ blockCuts step n p l

/-- Input bytes of a block under INDEP = 0 (R259). -/
def blockMax : Nat := 65535

/-- Bit at which the stored form of a block of `n` bytes that starts at bit `p` ends. -/
def storedEnd (p n : Nat) : Nat := (p + 10) / 8 * 8 + 32 + 8 * n

/-- An empty stored block follows a cut: under INDEP = 0 where a flush left the output not byte-aligned (R260), under INDEP = 1 after
every fixed-Huffman block but the last (R261). -/
def padded (indep : Bool) (c : Cut) (last : Bool) (b : BlockEnd) : Bool :=
  !last && (if indep then !b.stored else c.flushed && b.bitPos % 8 != 0)

/-- The blocks of a stream are those that the rules give, from bit `p` on: they end where they must, a fixed-Huffman block is no
longer than its stored form would be, charged for the 5 bytes of a cut, and cuts are padded (R258 to R261). -/
def blocksFit (indep : Bool) : Nat → List Cut → List BlockEnd → Bool
  | _, [], [] => true
  | p, c :: cs, b :: bs =>
    let last := cs.isEmpty
    let charge := if c.flushed || (indep && !last) then 40 else 0
    b.stop == c.stop && b.start != b.stop && b.final == last &&
      (b.stored || decide (b.bitPos + charge ≤ storedEnd p (b.stop - b.start))) &&
      (if padded indep c last b then
        match bs with
        | e :: bs => e.empty && !e.final && blocksFit indep e.bitPos cs bs
        | [] => false
      else blocksFit indep b.bitPos cs bs)
  | _, _, _ => false

/-- The output offset after each cut of a stream (R260, R263). -/
def cutOffsets (indep : Bool) : List Cut → List BlockEnd → List (Nat × Cut)
  | c :: cs, b :: bs =>
    if padded indep c cs.isEmpty b then
      match bs with
      | e :: bs => (byteUp e.bitPos, c) :: cutOffsets indep cs bs
      | [] => []
    else (byteUp b.bitPos, c) :: cutOffsets indep cs bs
  | _, _ => []

/-- Records cut at the record indices given, first index first. -/
def cutRecords (at_ : Nat) : List Nat → List Nat → List (List Nat)
  | [], rs => [rs]
  | i :: is, rs => rs.take (i - at_) :: cutRecords i is (rs.drop (i - at_))

/-! ### A job -/

/-- The input records of a job, compacted under FORM 1 (R257). -/
def State.jobInput (s : State) (j : Job) : List Nat :=
  if formOf (s.profHead j.prof) then j.recs.map s.compact else j.recs.map BitVec.toNat

/-- Input bytes of a job. -/
def State.jobBytes (s : State) (j : Job) : Nat := recBytes (formOf (s.profHead j.prof)) * j.recs.length

/-- Bytes of records. -/
def recordBytes (form : Bool) (rs : List Nat) : List Byte := rs.flatMap (leBytes (recBytes form))

/-- Round up to a multiple of 8. -/
def up8 (n : Nat) : Nat := (n + 7) / 8 * 8

/-- The block ends of a job's input, its sync points among them (R259 to R261). -/
def State.jobCuts (s : State) (j : Job) : List Cut :=
  let w := s.profHead j.prof
  let rb := recBytes (formOf w)
  blockCuts (if indepOf w then iblkOf w * rb else blockMax) (s.jobBytes j) 0 (j.syncs.map (· * rb))

/-- The bound B of R265. -/
def State.jobBound (s : State) (j : Job) : Nat :=
  let n := s.jobBytes j
  let f := j.syncs.length
  if indepOf (s.profHead j.prof) then n + 13 * (s.jobCuts j).length + 32 else n + 5 * ((n + 65534) / 65535 + f) + 32 + 8 * f

/-- A job whose allocation is the bound (R266, R267, R264). -/
def State.jobAtBound (s : State) (j : Job) : Bool := allocOf (s.profHead j.prof) == 0 || j.larger || j.stored

/-- The allocation A of a job (R266). -/
def State.jobAlloc (s : State) (j : Job) : Nat :=
  if s.jobAtBound j then s.jobBound j else up8 ((s.jobBytes j * allocOf (s.profHead j.prof) + 255) / 256)

/-- The stream of a job as read (R258, R261). -/
def State.jobRead (s : State) (j : Job) (stream : List Byte) : Inflated := inflate (indepOf (s.profHead j.prof)) stream

/-- Entries in the index of a job's frame: one per sync point, or one per independent block (R263). -/
def State.jobEntries (s : State) (j : Job) : Nat :=
  if indepOf (s.profHead j.prof) then (s.jobCuts j).length else j.syncs.length

/-- Index entries of a stream, as output offset and record index (R263). -/
def State.jobIndex (s : State) (j : Job) (x : Inflated) : List (Nat × Nat) :=
  let w := s.profHead j.prof
  let rb := recBytes (formOf w)
  let at_ := cutOffsets (indepOf w) (s.jobCuts j) x.blocks
  let named := fun (l : List (Nat × Cut)) => l.map (fun c => (c.1, c.2.stop / rb))
  if indepOf w then (0, 0) :: named at_.dropLast else named (at_.filter (·.2.flushed))

/-- What the stream of a job must decode to: the transformed input, each independent block from a cleared state (R257, R261). -/
def State.jobExpected (s : State) (j : Job) : List Byte :=
  let w := s.profHead j.prof
  let rs := s.jobInput j
  if j.stored then recordBytes (formOf w) rs
  else
    let ops := (List.range (nopsOf w)).map (s.profOp j.prof)
    let parts := if indepOf w then cutRecords 0 ((s.jobCuts j).dropLast.map (fun c => c.stop / recBytes (formOf w))) rs else [rs]
    recordBytes (formOf w) (parts.flatMap (transform (formOf w) ops []))

/-- The inline decoder accepts the stream (R258 to R261, R264): its blocks are those that the rules give, all stored in a stored
re-run, and it decodes to the input. -/
def State.jobVerified (s : State) (j : Job) (x : Inflated) : Bool :=
  x.whole && (!j.stored || x.blocks.all (·.stored)) && blocksFit (indepOf (s.profHead j.prof)) 0 (s.jobCuts j) x.blocks &&
    x.out == s.jobExpected j

/-- The 32-byte header, the data and the index of a frame (R262, R263). -/
def State.jobFrame (s : State) (j : Job) (x : Inflated) (stream : List Byte) : List Byte :=
  let w := s.profHead j.prof
  let idx := s.jobIndex j x
  let h := leBytes 4 0x46425150 ++
    leBytes 4 (0x01 + j.prof % 16 * 2 ^ 8 + b2n (indepOf w) * 2 ^ 12 + b2n j.stored * 2 ^ 13 + b2n (formOf w) * 2 ^ 14 +
      xtagOf w * 2 ^ 16) ++
    leBytes 4 (s.jobBytes j) ++ leBytes 4 stream.length ++ leBytes 4 idx.length ++ leBytes 4 j.syncs.length ++
    leBytes 4 (crc32c (recordBytes (formOf w) (s.jobInput j)))
  h ++ leBytes 4 (crc32c h) ++ stream ++ idx.flatMap (fun e => leBytes 4 e.1 ++ leBytes 4 e.2)

/-! ### Job starts (R253, R266, R269, R270, R403) -/

/-- Least steps between job starts of one baler at a throttle level (R403). -/
def startSpacing (level : Nat) : Nat := if level = 0 then 0 else 2 ^ (level + 2)

/-- A baler can take a job at this step boundary. -/
def State.balerFree (s : State) (b : Nat) : Bool :=
  let x := s.baler b
  s.balerClaimed b && !x.failed && x.job.isNone &&
    (match x.lastStart with
     | some t => decide (t + startSpacing s.thermal.level ≤ s.clock.step)
     | none => true)

/-- Destinations that wait for a job, by its part. -/
def State.jobDests (s : State) (j : Job) : Nat :=
  ((s.trig.staging.find? (fun p => p.num == j.num && p.part == j.part && !p.merged)).map (fun p => Tbl.get 0 p.jobs j.prof)).getD 0

/-- The job that starts next (R253): the oldest for whose destinations no job of a lower trigger number waits. -/
def State.nextJob (s : State) : Option Job :=
  s.jobs.find? (fun j => s.jobs.all (fun k =>
    !laterMod 32 j.num.toNat k.num.toNat || Nat.land (s.jobDests j) (s.jobDests k) == 0))

/-- JOB_START: a free baler takes the next waiting job, when output staging has room for its allocation (R253, R266). -/
def State.jobStart (s : State) (b : Nat) : State :=
  match s.nextJob with
  | none => s
  | some j =>
    let a := s.jobAlloc j
    if s.balerFree b && decide (s.stagingUse + a ≤ stagingBytes) then
      ({ s with jobs := s.jobs.erase j }).setBaler b
        { s.baler b with job := some { j with alloc := a }, lastStart := some s.clock.step }
    else s

/-- Flushes that wait complete: DETAIL [0] reports their sync point (R260). -/
def State.endFlushes (s : State) (b : Nat) : State :=
  match (s.baler b).job with
  | none => s
  | some j =>
    let s := if j.flushes = [] then s else s.setBaler b { s.baler b with job := some { j with flushes := [] } }
    j.flushes.foldl (fun s src => s.complete src .ok 1) s

/-- The balers at a step boundary, in ascending number; jobs that still wait are counted in cycles (R253, R271). DESIGN CHOICE: the
block end of a flush is in the job's output at the step boundary after it (log 88). -/
def State.jobStarts (s : State) : State :=
  let s := (List.range 4).foldl State.endFlushes s
  let s := (List.range 4).foldl State.jobStart s
  s.bump (figBaler 4 whole) (256 * s.jobs.length)

/-! ### Job ends (R264 to R268) -/

/-- A job's output becomes the payload of its part for the destinations that wait for it (R266), and lies in output staging. -/
def State.commitJob (s : State) (j : Job) (frame : List Byte) : State :=
  let s := match s.trig.staging.find? (fun p => p.num == j.num && p.part == j.part && !p.merged) with
    | some p => s.placeBytes p (some j.prof) frame
    | none => s
  { s with trig := { s.trig with staging := s.trig.staging.map (fun p =>
      if p.num = j.num ∧ p.part = j.part ∧ p.merged = false then
        { p with jobs := Tbl.set 0 p.jobs j.prof 0, frames := Tbl.set [] p.frames j.prof frame }
      else p) } }

/-- A frame of a job passes its allocation before the end of its input (R266): the header, the data and the index. -/
def State.jobTooLong (s : State) (j : Job) (stream : List Byte) : Bool :=
  !s.jobAtBound j && decide (s.jobAlloc j < 32 + stream.length + 8 * s.jobEntries j)

/-- The status of a job that ends with a stream (R264, R266, R268). -/
def State.jobStatus (s : State) (j : Job) (stream : List Byte) (sound : Bool) : Nat :=
  if s.jobTooLong j stream then 1
  else if sound && s.jobVerified j (s.jobRead j stream) then (if j.stored then 3 else 0)
  else if j.stored then 4
  else 2

/-- JOB_END: `stream` is the DEFLATE data that the fixed match finder made, `sound` whether the inline decoder worked. -/
def State.jobEnd (s : State) (b : Fin 4) (stream : List Byte) (sound : Bool) : State :=
  match (s.baler b).job with
  | none => s
  | some j =>
    if !s.live then s
    else
      let st := s.jobStatus j stream sound
      let s := (s.endFlushes b).bump (figBaler 1 b st)
      let s := if st = 0 ∨ st = 1 then s else s.post .balerjob [(st, 4)]
      let frame := s.jobFrame j (s.jobRead j stream) stream
      let n := s.jobBytes j
      let x' := s.baler b
      let again := { j with flushes := [] }
      let idle := { x' with job := none }
      match st with
        | 0 | 3 =>
          (s.setBaler b { idle with inBytes := x'.inBytes + n, outBytes := x'.outBytes + up8 frame.length }).commitJob j frame
        | 1 =>
          if nspolOf (s.profHead j.prof) then (s.setBaler b idle).dropJob j.num j.part j.prof
          else
            let r := { again with larger := true }
            s.setBaler b { x' with job := some { r with alloc := s.jobAlloc r } }
        | 2 =>
          let r := { again with stored := true }
          (s.setBaler b { x' with job := some { r with alloc := s.jobAlloc r } }).localErr s.red.active .mismatch
        | _ =>
          (((s.setBaler b { idle with failed := true }).dropJob j.num j.part j.prof).localErr s.red.active .balerfail).post
            .balerfail [] (some s.red.active)

/-- A sync point joins those of a job, in rising order; two flushes that reach one record boundary make one (R260). -/
def Job.sync (j : Job) (r : Nat) : Job :=
  if j.syncs.contains r then j else { j with syncs := j.syncs.filter (· < r) ++ [r] ++ j.syncs.filter (fun x => decide (r < x)) }

/-- FLUSH (R260) of a job that has taken in `taken` records whole: the next record boundary ends the block in progress and is a sync
point. It completes at once with DETAIL 0 without a job, past the last record, or for a baler that is not claimed. -/
def State.flushRow (s : State) (src : Src) (taken : Nat) : State :=
  s.command src clTrig 1 (fun w =>
    let b := cmdArg0 w
    match (s.baler b).job with
    | some j =>
      let r := max 1 taken
      if !s.balerClaimed b || decide (j.recs.length ≤ r) then s.complete src .ok 0
      else if j.flushes.contains src then s
      else
        let s := if j.syncs.contains r then s else s.bump (figBaler 3 b)
        s.setBaler b { s.baler b with job := some { j.sync r with flushes := j.flushes ++ [src] } }
    | none => s.complete src .ok 0)

/-! ### Meanings -/

def execJobEnd (baler : Fin 4) (stream : List Byte) (sound : Bool) (s : State) : Host.Outcome State Fault Refusal :=
  .next (s.jobEnd baler stream sound)

def execFlush (src : Src) (taken : Nat) (s : State) : Host.Outcome State Fault Refusal := .next (s.flushRow src taken)

end Sys2Proof.Machine
end

