-- ==== Sys2Proof/Machine/Fodafort.lean ====
section
/-!
DEFINITION. Fodafort ports: training, markers, electrical idle, frames, acknowledgement, pause, and the sending of parts and
primitives (R297 to R327).
-/

namespace Sys2Proof.Machine

/-! ### Lanes (R300, R301, R304 to R306) -/

/-- Fields of a training word (R306). -/
def twState (w : Nat) : Nat := bitsAt w 52 4
def twRates (w : Nat) : Nat := bitsAt w 49 3
def twRole (w : Nat) : Nat := bitsAt w 45 2
def twReq (w : Nat) : Nat := bitsAt w 40 4
def twDone (w : Nat) : Bool := bitAt w 37
def twNode (w : Nat) : Nat := bitsAt w 21 16

/-- A request to the own transmitter, refused at the limits of R300; `preset` gives the starting values. RSP says what became of it
(R306): 1 done, 2 at the limit, 0 no request. -/
def Lane.request (l preset : Lane) (req : Nat) : Lane :=
  let limit := { l with rsp := 2 }
  match req with
  | 1 => if l.pre < 15 ∧ l.pre + l.post < 32 then { l with pre := l.pre + 1, rsp := 1 } else limit
  | 2 => if l.pre = 0 then limit else { l with pre := l.pre - 1, rsp := 1 }
  | 3 => if l.post < 31 ∧ l.pre + l.post < 32 then { l with post := l.post + 1, rsp := 1 } else limit
  | 4 => if l.post = 0 then limit else { l with post := l.post - 1, rsp := 1 }
  | 5 => { l with pre := preset.pre, post := preset.post, rsp := 1 }
  | _ => { l with rsp := 0 }

/-! ### Training (R307 to R309) -/

/-- Rate codes that the port permits (R303). -/
def State.rateMask (s : State) (p : Nat) : Nat := bitsAt (pcfgOf s.portWord p) 0 3

/-- ROLE of the own port as training words carry it. -/
def State.portRole (s : State) (p : Nat) : Nat := bitsAt (s.portParam p) 0 2

/-- Accepted pairings (R308). -/
def roleAccepted (own partner : Nat) : Bool := if own = 2 then partner == 1 else partner != 1

/-- Words that the four lanes last received; none while a lane has received none. -/
def PortCopy.words (c : PortCopy) : Option (List Nat) :=
  let ws := (List.range 4).filterMap (fun k => (c.lane k).word.map BitVec.toNat)
  if ws.length = 4 then some ws else none

/-- Forget the words and the convergence of the lanes as a state begins. -/
def PortCopy.listen (c : PortCopy) : PortCopy :=
  (List.range 4).foldl (fun c k => c.setLane k { c.lane k with word := none, conv := false, rsp := 0 }) c

def State.modCopy (s : State) (h : Hub) (p : Nat) (g : PortCopy → PortCopy) : State :=
  s.modPort p (fun x => x.setCopy h (g (x.copy h)))

/-- The copy leaves UP: a path loss when it has been UP (R362). -/
def State.leaveUp (s : State) (h : Hub) (p : Fin 4) : State :=
  if ((s.port p).copy h).st = .up then s.localErr h (.portdown p) else s

/-- A failed attempt: back-off, with FFDOWN at the first failure (R309). -/
def State.backOff (s : State) (h : Hub) (p : Fin 4) : State :=
  let s := s.leaveUp h p
  let c := (s.port p).copy h
  let s := s.modCopy h p (fun c => { c.listen with st := .backoff, downSaid := true, markerKnown := false })
  if c.downSaid then s else s.post .ffdown [] (some h)

/-- ALIGN begins with the equaliser settings that the lanes have. -/
def PortCopy.toAlign (c : PortCopy) (fresh : Bool) : PortCopy :=
  { c.listen with st := .align, markerKnown := false, badSeq := 0, fresh := fresh }

/-- Frames of a port that wait to leave. -/
def isFrameOf (p : Nat) (o : Nat × Out) : Bool :=
  match o.2 with
  | .frame q .. => q == p
  | _ => false

/-- The sequences of a port start afresh (R317). -/
def State.freshPort (s : State) (p : Nat) : State :=
  s.modPort p (fun x => { x with txseq := 1, rxseq := 0, unacked := [], rx := none, ackDue := false, paused := false })

/-- A copy reaches UP: its equaliser results are applied (R302, R307, R309, R317). -/
def State.portUp (s : State) (h : Hub) (p : Fin 4) : State :=
  let c := (s.port p).copy h
  let s := if c.fresh ∧ h = s.red.active then s.freshPort p else s
  let s := s.modCopy h p (fun c => { c with
    st := .up, wait := 1, downSaid := false, wired := true, fresh := false, cap := 2 })
  let s := s.post .ffup [] (some h)
  (List.range 4).foldl (fun s k => s.laneResult (some h) (16 * h.idx + 4 * p + k)) s

/-- The partner's NODE and ROLE, as the first lane's training word gives them. -/
def PortCopy.partnerOf (c : PortCopy) (ws : List Nat) : PortCopy :=
  { c with
    partner := BitVec.ofNat 16 (twNode (ws.headD 0)), partnerRole := BitVec.ofNat 2 (twRole (ws.headD 0)) }

/-- The highest rate that both sides permit, not above the cap. -/
def State.chosenRate (s : State) (p : Nat) (c : PortCopy) (ws : List Nat) : Option Nat :=
  let m := ws.foldl (fun m w => Nat.land m (twRates w)) (s.rateMask p)
  (List.range 3).reverse.find? (fun r => bitAt m r && decide (r ≤ c.cap))

/-- One advance of training on the words last received (R307). -/
def State.advance (s : State) (h : Hub) (p : Fin 4) : State :=
  let c := (s.port p).copy h
  match c.words with
  | none => s
  | some ws =>
    match c.st with
    | .detect => s.modCopy h p (fun c => { c.partnerOf ws with st := .link })
    | .link =>
      match s.chosenRate p c ws with
      | some r =>
        if ws.all (fun w => twState w == 2 || twState w == 3) then
          s.modCopy h p (fun c => { c with st := .eq, rate := r })
        else s
      | none => s
    | .eq =>
      if ws.all twDone && (List.range 4).all (fun k => (c.lane k).conv) then s.modCopy h p (fun c => c.toAlign true) else s
    | .wake => s.modCopy h p (fun c => (c.partnerOf ws).toAlign false)
    | _ => s

/-- The copy is in a state that sends and takes training words. -/
def PortState.trains (x : PortState) : Bool := x == .detect || x == .link || x == .eq || x == .wake

/-- A port copy works: the node is live and outside fallow and frost (R313). -/
def State.lanesOn (s : State) : Bool := s.live && !deepState s.node.pstate

/-- TSTATE of a training word (R306). -/
def PortState.code : PortState → Nat
  | .detect => 1 | .link => 2 | .eq => 3 | .align => 4 | .wake => 5 | .up => 6 | .off | .backoff => 0

/-- The training word that a lane sends (R306): in EQ with a request, which the spec leaves to the receiver, and the answer to the
partner's last one. -/
def State.sentWord (s : State) (h : Hub) (lane : Nat) : BitVec 56 :=
  let p := lane / 4
  let c := (s.port p).copy h
  let l := c.lane (lane % 4)
  let eq := c.st == .eq
  let done := eq && (List.range 4).all (fun k => (c.lane k).conv)
  BitVec.ofNat 56 (c.st.code * 2 ^ 52 + s.rateMask p * 2 ^ 49 + lane % 4 * 2 ^ 47 + s.portRole p * 2 ^ 45 +
    b2n (h == s.red.active) * 2 ^ 44 + (if eq then Config.eqRequest lane s.clock.step % 6 else 0) * 2 ^ 40 +
    (if eq then l.rsp.toNat else 0) * 2 ^ 38 + b2n done * 2 ^ 37 + s.node.nodeId.toNat * 2 ^ 21)

/-- A lane that trains sends its word in turn (R306). -/
def State.sendWord (s : State) (h : Hub) (lane : Nat) : State :=
  if ((s.port (lane / 4)).copy h).st.trains then s.answer (.training h lane (s.sentWord h lane)) else s

/-- TRAINING_WORD (R306 to R308). -/
def State.trainingWord (s : State) (h : Hub) (lane : Fin 16) (word : BitVec 56) (converged : Bool) : State :=
  let p : Fin 4 := Fin.ofNat 4 (lane / 4)
  let k := lane.val % 4
  let c := (s.port p).copy h
  if !s.lanesOn || !c.st.trains then s
  else
    let w := word.toNat
    if c.st == .detect && !roleAccepted (s.portRole p) (twRole w) then
      let s := (if c.roleSaid then s else s.post .ffrole [] (some h)).backOff h p
      s.modCopy h p (fun c => { c with roleSaid := true })
    else
      let l := c.lane k
      let l := if c.st = .eq then (l.request (s.lanePreset h lane) (twReq w)) else l
      let s := s.modCopy h p (fun c => c.setLane k { l with word := some word, conv := l.conv || converged })
      ((s.advance h p).advance h p).sendWord h lane

/-- TRAINING_TIMEOUT (R307). -/
def State.trainingTimeout (s : State) (h : Hub) (p : Fin 4) : State :=
  let c := (s.port p).copy h
  if !s.lanesOn then s
  else
    match c.st with
    | .detect | .link | .wake => s.backOff h p
    | .eq => s.modCopy h p (fun c => c.toAlign true)
    | .align =>
      if (List.range c.rate).any (fun r => bitAt (s.rateMask p) r) then
        s.modCopy h p (fun c => { c.listen with st := .link, cap := c.rate - 1, rate := 0, markerKnown := false })
      else s.backOff h p
    | _ => s

/-- The wait after a wait of `ms` (R309). -/
def nextWait (ms : Nat) : Nat := if ms < 512 then 2 * ms else 1000

/-- BACKOFF_EXPIRY (R309): DETECT starts again. -/
def State.backoffExpiry (s : State) (h : Hub) (p : Fin 4) : State :=
  if s.lanesOn && ((s.port p).copy h).st == .backoff then
    (s.modCopy h p (fun c => { c with wait := nextWait c.wait })).detect h p
  else s

/-! ### Markers (R310 to R312) -/

/-- An alignment loss: back to ALIGN with the settings in force, the frames in progress discarded (R310). -/
def State.portLoss (s : State) (h : Hub) (p : Fin 4) : State :=
  let s := s.leaveUp h p
  let s := s.modCopy h p (fun c => { c.toAlign c.fresh with idle := false, quiet := false })
  let s := if h = s.red.active then s.modPort p (fun x => { x with rx := x.rx.map (fun r => { r with gap := true }) }) else s
  let s := (List.range 4).foldl (fun (s : State) (k : Nat) => s.bump (figFoda 3 2 (16 * h.idx + 4 * p + k))) s
  s.post .ffalign [] (some h)

/-- The markers of the four lanes agree: four different lanes and one SEQ. -/
def markersAgree (lanes : List (BitVec 2)) (seqs : List (BitVec 16)) : Bool :=
  (List.range 4).all (fun k => lanes.contains (BitVec.ofNat 2 k)) && lanes.length == 4 && seqs.length == 4 &&
    seqs.all (fun q => q == seqs.headD 0)

/-- FODAFORT_MARKER (R307, R310, R312): in ALIGN the deskewed markers take the port to UP; in UP they are checked. -/
def State.fodaMarker (s : State) (h : Hub) (p : Fin 4) (lanes : List (BitVec 2)) (seqs : List (BitVec 16)) (skewPs : Nat) : State :=
  let c := (s.port p).copy h
  let q := seqs.headD 0
  if !s.lanesOn then s
  else if c.st = .align then
    if markersAgree lanes seqs && decide (skewPs ≤ 180000) then
      (s.modCopy h p (fun c => { c with marker := q, markerKnown := true })).portUp h p
    else s
  else if c.st = .up then
    if 180000 < skewPs then s.portLoss h p
    else
      let good := markersAgree lanes seqs && (!c.markerKnown || q == c.marker + 1)
      let bad := if good then 0 else c.badSeq + 1
      if bad = 2 then s.portLoss h p
      else s.modCopy h p (fun c => { c with marker := q, markerKnown := true, badSeq := bad, quiet := false })
  else s

/-- WAKE (R312): a copy in electrical idle sends its burst and a marker. -/
def State.wakeRow (s : State) (h : Hub) (p : Fin 4) : State :=
  let c := (s.port p).copy h
  if s.live && s.node.pstate == .active && c.idle then s.modCopy h p (fun c => { c with idle := false, txMarker := c.txMarker + 1 })
  else s

/-- WAKE_TIMEOUT (R312). -/
def State.wakeTimeout (s : State) (h : Hub) (p : Fin 4) : State :=
  let c := (s.port p).copy h
  if s.lanesOn && c.st == .up && c.quiet then s.portLoss h p else s

/-- The copy announces QUIET and goes into electrical idle (R311). -/
def State.goIdle (s : State) (h : Hub) (p : Fin 4) : State :=
  let c := (s.port p).copy h
  if c.st = .up ∧ c.idle = false then (s.emit (.ctrl (some h) p 4 0)).modCopy h p (fun c => { c with idle := true }) else s

/-! ### Frames received (R314 to R316, R319 to R322) -/

/-- A frame laid out (R314): start block, payload, and the CRC over the seven bytes of the start block's fields and the payload. -/
def portFrame (type : Nat) (act : Bool) (fseq : BitVec 16) (payload : List Byte) : PortFrame :=
  let start := type % 16 * 2 ^ 52 + payload.length / 8 % 2048 * 2 ^ 41 + b2n act * 2 ^ 40 + fseq.toNat * 2 ^ 24
  { start := BitVec.ofNat 56 start, payload := payload, crc := BitVec.ofNat 32 (crc32c (leBytes 7 start ++ payload)) }

/-- Fields of a frame's start block. -/
def frameType (f : PortFrame) : Nat := bitsAt f.start.toNat 52 4
def frameNdata (f : PortFrame) : Nat := bitsAt f.start.toNat 41 11
def frameSeq (f : PortFrame) : BitVec 16 := f.start.extractLsb' 24 16

/-- A frame of a type is good (R314): its type, its CRC, and NDATA, which gives its length and is 1,150 at most. -/
def frameGood (f : PortFrame) (type : Nat) : Bool :=
  frameType f == type && f.crc.toNat == crc32c (leBytes 7 f.start.toNat ++ f.payload) && decide (frameNdata f ≤ 1150) &&
    f.payload.length == 8 * frameNdata f

/-- A copy takes frames: it is in UP. -/
def State.frameHere (s : State) (h : Hub) (p : Fin 4) : Bool := s.lanesOn && ((s.port p).copy h).st == .up

/-- The checks of a sequenced frame of a type: the state after, and whether the frame is accepted (R314, R316). -/
def State.acceptFrame (s : State) (h : Hub) (p : Fin 4) (type : Nat) (f : PortFrame) : Bool × State :=
  if !s.frameHere h p then (false, s)
  else
    let s := s.bump (figFoda 5 (5 + type) p)
    if !(frameGood f type) then (false, s.bump (figFoda 5 10 p))
    else
      let x := s.port p
      if !laterMod 16 (frameSeq f).toNat x.rxseq.toNat then (false, s.bump (figFoda 6 0 p))
      else
        let lost := (frameSeq f - x.rxseq).toNat - 1
        let rx := if lost = 0 then x.rx else x.rx.map (fun r => { r with gap := true })
        (true, (s.bump (figFoda 6 1 p) lost).setPort p { x with rxseq := frameSeq f, ackDue := true, rx := rx })

/-- The segment word of a DATA frame (R320). -/
def segTrig (w : Nat) : Nat := bitsAt w 0 32
def segPart (w : Nat) : Nat := bitsAt w 56 8
def segFirst (w : Nat) : Bool := bitAt w 55
def segEnd (w : Nat) : Bool := bitAt w 54

/-- A part of a MERGE-IN port is complete or damaged, and goes to its set when its header has come (R324, R326). -/
def State.endRxPart (s : State) (p : Fin 4) (r : RxPart) : State :=
  let s := s.modPort p (fun x => { x with rx := none })
  if r.bytes.length < 32 then s else s.mergeAdd (p + 1) r.bytes r.gap

/-- The bytes of an accepted DATA frame join the part of the port in progress (R320, R323). -/
def State.joinPart (s : State) (p : Fin 4) (payload : List Byte) : State :=
  let w := leAt payload 0 8
  let bs := payload.drop 8
  let s :=
    if segFirst w then
      match (s.port p).rx with
      | some r => s.endRxPart p { r with gap := true }
      | none => s
    else s
  let cur : Option RxPart :=
    if segFirst w then some ⟨BitVec.ofNat 32 (segTrig w), segPart w, [], false⟩
    else (s.port p).rx
  match cur with
  | none => s
  | some r =>
    let same := r.trigno.toNat == segTrig w && r.part == segPart w
    let r := { r with bytes := r.bytes ++ bs, gap := r.gap || !same }
    if segEnd w then s.endRxPart p r else s.modPort p (fun x => { x with rx := some r })

/-- DATA_FRAME (R316, R321, R323). -/
def State.dataFrame (s : State) (h : Hub) (p : Fin 4) (f : PortFrame) : State :=
  let r := s.acceptFrame h p 1 f
  if !r.1 then r.2
  else if r.2.portIsMerge p && r.2.node.mode == .hub then r.2.joinPart p f.payload
  else r.2.bump (figFoda 5 11 p)

/-- PRIM_FRAME (R316, R321): discarded and counted on a port of either role. -/
def State.primFrame (s : State) (h : Hub) (p : Fin 4) (f : PortFrame) : State :=
  let r := s.acceptFrame h p 2 f
  if r.1 then r.2.bump (figFoda 5 11 p) else r.2

/-- A CTRL word is received on a copy in UP. -/
def State.ctrlWord (s : State) (h : Hub) (p : Fin 4) (g : Port → Port) : State :=
  if s.frameHere h p then (s.bump (figFoda 5 9 p)).modPort p g else s

/-- An ACK covers the frames not later than its FSEQ (R318); one for a frame not sent covers none. -/
def Port.acked (x : Port) (seq : BitVec 16) : Port :=
  if laterMod 16 seq.toNat (x.txseq - 1).toNat then x
  else { x with unacked := x.unacked.filter (fun u => laterMod 16 u.2.1.toNat seq.toNat) }

/-- QUIET (R311): the receiver holds its state, and the port goes idle itself. -/
def State.quietRow (s : State) (h : Hub) (p : Fin 4) : State :=
  if s.frameHere h p then ((s.ctrlWord h p id).modCopy h p (fun c => { c with quiet := true })).goIdle h p else s

/-- FFNOACK (R318): the port returns to ALIGN and discards its unacknowledged frames. -/
def State.noAck (s : State) (p : Fin 4) : State :=
  let x := s.port p
  if !s.lanesOn || x.unacked.isEmpty then s
  else
    let down := fun (s : State) (h : Hub) =>
      if ((s.port p).copy h).st = .up then (s.leaveUp h p).modCopy h p (fun c => c.toAlign c.fresh) else s
    let s := down (down s .a) .b
    let s := s.modPort p (fun x => { x with unacked := [] })
    (s.bump (figFoda 6 2 p)).post .ffnoack []

/-- MERGE_PAUSE_REPEAT (R319). -/
def State.pauseAgain (s : State) (p : Fin 4) : State :=
  if s.lanesOn && (s.port p).pauseOut then s.emit (.ctrl none p 2 0) else s

/-- MERGE_TIMEOUT (R325). -/
def State.mergeTimeout (s : State) (trigno epoch : BitVec 32) : State :=
  match s.foda.sets.find? (fun x => x.trigno == trigno && x.epoch == epoch) with
  | some x => if s.live then s.closeSet x false else s
  | none => s

/-! ### Parts and primitives sent (R320, R321) -/

/-- Bytes of a part that one DATA frame carries beside its segment word (R314). -/
def frameData : Nat := 9192

/-- The payloads of a part's DATA frames. -/
def segments (trig part : Nat) (first : Bool) : Nat → List Byte → List (List Byte)
  | 0, _ => []
  | n + 1, bs =>
    let last := decide (bs.length ≤ frameData)
    let w := trig % 2 ^ 32 + part % 256 * 2 ^ 56 + b2n first * 2 ^ 55 + b2n last * 2 ^ 54
    (leBytes 8 w ++ bs.take frameData) :: if last then [] else segments trig part false n (bs.drop frameData)

/-- The port can start sequenced frames. -/
def State.portOpen (s : State) (p : Nat) : Bool :=
  let c := (s.port p).copy s.red.active
  c.st == .up && !c.idle && !(s.port p).paused

/-- The next part of a port at a step boundary: discarded while the port is not in UP, waiting while it is paused, else sent as
DATA frames (R320). -/
def State.portDelivery (s : State) (p : Nat) : State :=
  match s.nextPart (p + 1) with
  | none => s
  | some x =>
    if s.partBusy x (p + 1) then s
    else if !s.portInUp p then (s.bump (figFoda 7 1 p)).partTaken (p + 1)
    else if !s.portOpen p then s
    else
      let b := (s.partBytes x (p + 1) (bitAt (pcfgOf s.portWord p) 3)).1
      let fs := segments x.num.toNat x.part true (b.length / frameData + 1) b
      (fs.foldl (fun s f => s.emit (.frame p 1 f)) s).partTaken (p + 1)

/-- Primitives of one PRIM frame (R321). -/
def primsPerFrame : Nat := 1148
def primStaging : Nat := 8192

/-- The PRIM frames of a slice: PRIMID, slice word, primitives. -/
def primFrames (primid epoch slice : Nat) : Nat → Nat → List (BitVec 64) → List (List Byte)
  | 0, _, _ => []
  | n + 1, idx, ps =>
    let last := decide (ps.length ≤ primsPerFrame)
    let w := epoch % 2 ^ 32 * 2 ^ 32 + slice % 4096 * 2 ^ 20 + idx % 4096 * 2 ^ 8 + b2n last
    (leBytes 8 primid ++ leBytes 8 w ++ (ps.take primsPerFrame).flatMap (fun p => leBytes 8 p.toNat)) ::
      if last then [] else primFrames primid epoch slice n (idx + primsPerFrame) (ps.drop primsPerFrame)

/-- The primitives of a released slice go to the ports of the PRIM role; what a blocked port cannot stage is dropped (R134,
R321). -/
def State.sendPrims (s : State) (seq : Nat) (ps : List (BitVec 64)) : State :=
  let primid := numAt (s.table idFormat) 64 8
  (List.range 4).foldl (fun s p =>
    if !(s.portIsUp p && s.portPrim p) then s
    else
      let open_ := s.portOpen p
      let x := s.port p
      let room := if open_ then ps.length else (primStaging - x.primBytes - 16) / 8
      let kept := ps.take room
      let s := s.bump (figFoda 7 2 p) (ps.length - kept.length)
      if !open_ && decide (primStaging < x.primBytes + 16) then s
      else
        let s := s.setPort p { x with primBytes := if open_ then 0 else x.primBytes + 16 + 8 * kept.length }
        (primFrames primid (seq / 4096) (seq % 4096) (kept.length / primsPerFrame + 1) 0 kept).foldl
          (fun s f => s.emit (.frame p 2 f)) s) s

/-- At a step boundary: parts leave, acknowledgements are sent, and the time paused is counted (R316, R320, R327). -/
def State.portsAtStep (s : State) : State :=
  (List.range 4).foldl (fun s p =>
    let s := s.portDelivery p
    let s := if (s.port p).paused then s.bump (figFoda 7 0 p) 256 else s
    let x := s.port p
    if x.ackDue then (s.setPort p { x with ackDue := false }).emit (.ctrl none p 1 x.rxseq.toNat) else s) s

/-! ### Meanings -/

def execTrainingWord (h : Hub) (lane : Fin 16) (word : BitVec 56) (converged : Bool) (s : State) :
    Host.Outcome State Fault Refusal :=
  .next (s.trainingWord h lane word converged)

def execTrainingTimeout (h : Hub) (port : Fin 4) (s : State) : Host.Outcome State Fault Refusal :=
  .next (s.trainingTimeout h port)

def execBackoffExpiry (h : Hub) (port : Fin 4) (s : State) : Host.Outcome State Fault Refusal :=
  .next (s.backoffExpiry h port)

def execFodafortMarker (h : Hub) (port : Fin 4) (lanes : List (BitVec 2)) (seqs : List (BitVec 16)) (skewPs : Nat) (s : State) :
    Host.Outcome State Fault Refusal :=
  .next (s.fodaMarker h port lanes seqs skewPs)

def execWake (h : Hub) (port : Fin 4) (s : State) : Host.Outcome State Fault Refusal := .next (s.wakeRow h port)

def execWakeTimeout (h : Hub) (port : Fin 4) (s : State) : Host.Outcome State Fault Refusal := .next (s.wakeTimeout h port)

def execDataFrame (h : Hub) (port : Fin 4) (frame : PortFrame) (s : State) : Host.Outcome State Fault Refusal :=
  .next (s.dataFrame h port frame)

def execPrimFrame (h : Hub) (port : Fin 4) (frame : PortFrame) (s : State) : Host.Outcome State Fault Refusal :=
  .next (s.primFrame h port frame)

def execFodafortAck (h : Hub) (port : Fin 4) (seq : BitVec 16) (s : State) : Host.Outcome State Fault Refusal :=
  .next (s.ctrlWord h port (fun x => x.acked seq))

def execFodafortPause (h : Hub) (port : Fin 4) (s : State) : Host.Outcome State Fault Refusal :=
  .next (s.ctrlWord h port (fun x => { x with paused := true }))

def execFodafortResume (h : Hub) (port : Fin 4) (s : State) : Host.Outcome State Fault Refusal :=
  .next (s.ctrlWord h port (fun x => { x with paused := false }))

def execQuiet (h : Hub) (port : Fin 4) (s : State) : Host.Outcome State Fault Refusal := .next (s.quietRow h port)

/-- PAUSE_EXPIRY (R319). -/
def execPauseExpiry (port : Fin 4) (s : State) : Host.Outcome State Fault Refusal :=
  .next (s.when s.lanesOn (fun s => s.modPort port (fun x => { x with paused := false })))

def execMergePauseRepeat (port : Fin 4) (s : State) : Host.Outcome State Fault Refusal := .next (s.pauseAgain port)

def execFfnoack (port : Fin 4) (s : State) : Host.Outcome State Fault Refusal := .next (s.noAck port)

def execMergeTimeout (trigno epoch : BitVec 32) (s : State) : Host.Outcome State Fault Refusal :=
  .next (s.mergeTimeout trigno epoch)

end Sys2Proof.Machine
end

