-- ==== Sys2Proof/Machine/Loops.lean ====
section
/-!
DEFINITION. The loop engine and the LED drive: inner law, periods, supervision, PWM, derating and gated windows (R411 to R430).
-/

namespace Sys2Proof.Machine

/-! ### Settings words (R413) -/

def LoopSt.en (l : LoopSt) : Bool := l.w0.getLsbD 63
def LoopSt.fbsrc (l : LoopSt) : Nat := bitsAt l.w0.toNat 61 2
def LoopSt.fent (l : LoopSt) : Nat := bitsAt l.w0.toNat 55 6
def LoopSt.dir (l : LoopSt) : Bool := l.w0.getLsbD 54
def LoopSt.h (l : LoopSt) : Int := bitsAt l.w0.toNat 10 24
def LoopSt.setpt (l : LoopSt) : Int := signed 32 (bitsAt l.w1.toNat 32 32)
def LoopSt.rate (l : LoopSt) : Int := bitsAt l.w1.toNat 0 32
def LoopSt.tlim (l : LoopSt) : Int := bitsAt l.w2.toNat 40 24
def LoopSt.felim (l : LoopSt) : Nat := bitsAt l.w2.toNat 16 24
def LoopSt.ki (l : LoopSt) : Int := bitsAt l.w2.toNat 0 16
def LoopSt.fetime (l : LoopSt) : Nat := bitsAt l.w3.toNat 56 8
def LoopSt.nfrz (l : LoopSt) : Nat := bitsAt l.w3.toNat 48 8
def LoopSt.res (l : LoopSt) : Nat := bitsAt l.w3.toNat 44 4 + 8
def LoopSt.pwmper (l : LoopSt) : Nat := bitsAt l.w3.toNat 24 20
def LoopSt.dutyCode (l : LoopSt) : Nat := bitsAt l.w3.toNat 8 16
def LoopSt.gmode (l : LoopSt) : Nat := bitsAt l.w3.toNat 6 2
def LoopSt.gtout (l : LoopSt) : Nat := bitsAt l.w3.toNat 4 2

/-- Figure of LOOPS (R430). -/
def figLoops (row n : Nat) (q : Nat := 0) : Fig := ⟨0x0B, row, q, 0, n⟩

/-- The loop engine runs: outside TRIPPED, fallow and frost (R429). -/
def State.loopsOn (s : State) : Bool := s.live && !deepState s.node.pstate

/-- The engine of the hub that holds the drive enable runs; none does in the gap of a switch-over (R428). -/
def State.engineOn (s : State) : Bool := s.loopsOn && s.red.drive.isSome

/-- The loop runs: enabled and not faulted (R413, R421). -/
def LoopSt.runs (l : LoopSt) : Bool := l.en && l.fault.isNone

/-- Off by derating or by LAMPNTC (R425). -/
def LoopSt.off (l : LoopSt) : Bool := l.offHot || l.offNtc

/-! ### The inner law (R414, R415) -/

/-- The output changes to a level. -/
def LoopSt.drive (l : LoopSt) (on : Bool) : LoopSt :=
  if l.out = on then l else { l with out := on, changes := l.changes + 1 }

/-- Codes of the two comparators, clamped (R414). -/
def LoopSt.low (l : LoopSt) : Int := clampInt 0 4095 (l.centre - l.h)
def LoopSt.high (l : LoopSt) : Int := clampInt 0 4095 (l.centre + l.h)

/-- LCSn in feedback units at 400 mV (R414). -/
def lcsLimit : Nat := 5120

/-- The comparators act on LCSn in feedback units (R414): a level holds until LDG_HOLD_END, but 400 mV switches off at once. -/
def LoopSt.compare (l : LoopSt) (lcs : Nat) : LoopSt :=
  if !(l.runs && !l.starting && l.onPhase && !l.off) || l.gmode == 2 then l
  else if lcsLimit < lcs then { l.drive false with hold := true }
  else if l.hold then l
  else if !l.out && decide ((lcs : Int) < l.low) then { l.drive true with hold := true }
  else if l.out && decide (l.high < (lcs : Int)) then { l.drive false with hold := true }
  else l

/-- LCS_CROSSING (R414). -/
def State.lcsCrossing (s : State) (n : Fin 4) (lcs : Nat) : State :=
  s.when s.engineOn (fun s => s.modLoop n (fun l => l.compare lcs))

/-- LDG_HOLD_END (R414): the gate switches if its comparator already calls for it. -/
def State.holdEnd (s : State) (n : Fin 4) (lcs : Nat) : State :=
  s.when s.engineOn (fun s => s.modLoop n (fun l => ({ l with hold := false }).compare lcs))

/-- A sample acts on the pin of a general loop (R415). -/
def LoopSt.onSample (l : LoopSt) (x : Int) : LoopSt :=
  if !(l.runs && !l.starting) then l
  else if x < l.centre - l.h then l.drive (!l.dir)
  else if l.centre + l.h < x then l.drive l.dir
  else l

/-! ### Periods (R416 to R421) -/

/-- The output goes to its safe state (R421). -/
def LoopSt.safe (l : LoopSt) : LoopSt := { l with out := false, hold := false }

/-- The loop starts anew (R419). -/
def LoopSt.start (l : LoopSt) : LoopSt :=
  { l.safe with
    starting := true, fault := none, sample := none, follow := 0, lostRow := 0, frozen := 0, frozenRef := none, changes := 0
    trim := 0 }

/-- Settings that wait for the period take effect (R412); those of PWM and windows wait for the PWM period of a string. -/
def LoopSt.takeWait (l : LoopSt) (string : Bool) : LoopSt :=
  match l.wait with
  | none => l
  | some (a, b, c, d) =>
    let hi := bitsAt d.toNat 48 16 * 2 ^ 48
    let w3 := if string then BitVec.ofNat 64 (hi + bitsAt l.w3.toNat 0 48) else d
    { l with w0 := a, w1 := b, w2 := c, w3 := w3, wait := none, waitPwm := if string then l.waitPwm else none }

/-- The ramp of the next period (R417). -/
def LoopSt.nextRamp (l : LoopSt) : Int :=
  if l.rate = 0 then l.setpt else l.ramp + clampInt (-l.rate) l.rate (l.setpt - l.ramp)

/-- Following error and frozen feedback (R420): the counters after a valid sample, and the fault found. `raw` is the value
compared for FROZEN. -/
def LoopSt.supervise (l : LoopSt) (x raw : Int) : LoopSt × Option LoopFault :=
  let fol := if l.felim = 0 then 0 else if l.felim < (l.ramp - x).natAbs then l.follow + 1 else 0
  let moved := l.changes != 0
  let same := l.frozenRef == some raw
  let frz := if l.nfrz < 2 then 0 else if moved then (if same then l.frozen + 1 else 0) else l.frozen
  let l := { l with follow := fol, frozen := frz, frozenRef := if moved then some raw else l.frozenRef }
  let f :=
    if l.felim ≠ 0 ∧ l.fetime ≤ fol then some LoopFault.follow
    else if 2 ≤ l.nfrz ∧ l.nfrz - 1 ≤ frz then some LoopFault.frozen
    else none
  (l, f)

/-- Code of a fault cause in LFAULT. -/
def LoopFault.code : LoopFault → Nat
  | .follow => Config.openCode 3 0 | .fbloss => Config.openCode 3 1 | .frozen => Config.openCode 3 2

/-- A fault is latched: safe state and LFAULT with loop, cause and last sample (R421). -/
def State.loopFaults (s : State) (n : Nat) (f : LoopFault) : State :=
  let l := s.loop n
  (s.setLoop n { l.safe with fault := some f, sample := none }).post .lfault
    [(n, 3), (f.code, 2), (unsigned 32 l.last, 32)]

/-- The loop will have counting cycles in the period that begins (R418). -/
def LoopSt.willCount (l : LoopSt) (string : Bool) : Bool :=
  l.runs && (l.starting || !string ||
    (!l.off && l.dutyCode != 0 && (l.gmode == 0 || (l.gmode == 1 && l.opens != 0))))

/-- A loop under FBSRC 0b01 requests its injected run at the start of a period (R416, R418). -/
def State.requestRun (s : State) (n : Nat) : State :=
  let l := s.loop n
  if l.fbsrc == 1 && l.willCount (n < 4) then { s with mon := { s.mon with arriving := s.mon.arriving ++ [8 + n] } } else s

/-- LOOP_PERIOD (R417 to R420): `lcsSum` is the sum of LCSn over the counting cycles, `cycles` their number, `onCycles` those with
the output on, `over400` whether LCSn exceeded 400 mV. -/
def State.loopPeriod (s : State) (n : Fin 8) (lcsSum onCycles cycles : Nat) (over400 : Bool) : State :=
  let l := s.loop n
  if !s.engineOn || !l.runs then s
  else
    let string := decide (n.val < 4)
    let direct := l.gmode == 2
    let need := (l.starting || decide (0 < cycles)) && !direct
    let x : Option (Int × Bool) :=
      if l.fbsrc = 0 then (if cycles = 0 then none else some (openDiv 10 lcsSum cycles, over400)) else l.sample
    let raw : Int := if l.fbsrc = 0 then (lcsSum : Int) else (x.map Prod.fst).getD 0
    let l := ({ l with dutyOn := onCycles, dutyAll := cycles, lastCycles := l.changes, sample := none }).takeWait string
    let end_ := fun (s : State) (l : LoopSt) =>
      let l := { l with centre := l.ramp + l.trim, changes := 0 }
      (s.setLoop n l).requestRun n
    if !need then (s.setLoop n { l with changes := 0 }).requestRun n
    else
      match x with
      | some (v, false) =>
        let l := { l with last := v, lostRow := 0 }
        if l.starting then end_ s { l with
          starting := false, ramp := v, trim := 0, follow := 0, lostRow := 0, frozen := 0, frozenRef := none }
        else
          let r := l.supervise v raw
          match r.2 with
          | some f => (s.setLoop n r.1).loopFaults n f
          | none =>
            let l := r.1
            let sat := onCycles = 0 ∨ cycles ≤ onCycles
            let s := if sat then s.bump (figLoops 3 n 2) else s
            let t := if sat then l.trim else clampInt (-l.tlim) l.tlim (l.trim + (l.ki * (l.ramp - v) + 32768) / 65536)
            end_ s { l with trim := t, ramp := l.nextRamp }
      | _ =>
        let s := s.bump (figLoops 3 n (if x.isSome then 1 else 0))
        let l := { l with last := (x.map Prod.fst).getD l.last, lostRow := l.lostRow + 1 }
        if 2 ≤ l.lostRow then (s.setLoop n l).loopFaults n .fbloss
        else if l.starting then (s.setLoop n { l with changes := 0 }).requestRun n
        else end_ s { l with ramp := l.nextRamp }

/-! ### PWM (R423) and windows (R426, R427) -/

/-- Steps of the on-phase (R423). -/
def LoopSt.onSteps (l : LoopSt) : Nat :=
  if l.dutyCode = 0 then 0
  else if l.dutyCode = 2 ^ l.res - 1 then l.pwmper
  else (l.dutyCode * l.scale / 65536) * l.pwmper / 2 ^ l.res

/-- A PWM period starts: waiting PWM settings, SCALE and off states take effect, and the on-phase begins (R412, R423, R425). -/
def LoopSt.pwmStart (l : LoopSt) : LoopSt :=
  let l := match l.waitPwm with
    | some (d, e) =>
      { l with
        w3 := BitVec.ofNat 64 (bitsAt l.w3.toNat 48 16 * 2 ^ 48 + bitsAt d.toNat 0 48), w4 := e, waitPwm := none }
    | none => l
  let l := match l.scaleWait with
    | some (k, a, b) => { l with scale := k, offHot := a, offNtc := b, scaleWait := none }
    | none => l
  let on := l.runs && !l.off && decide (0 < l.onSteps) && (l.gmode == 0 || (l.gmode == 1 && l.opens != 0))
  let l := { l with onPhase := on }
  if l.gmode = 2 then (if l.off then l.drive false else l) else if on then l else l.drive false

/-- PWM_PERIOD (R423). -/
def State.pwmPeriod (s : State) (n : Fin 4) : State := s.when s.engineOn (fun s => s.modLoop n LoopSt.pwmStart)

/-- PWM_ON_END (R414, R423). -/
def State.pwmOnEnd (s : State) (n : Fin 4) : State :=
  s.when s.engineOn (fun s => s.modLoop n (fun l =>
    if l.gmode = 2 ∨ l.onPhase = false then l else { l.drive false with onPhase := false }))

/-- The internal event of a TOUT makes a window due for each string that it gates (R426). -/
def State.loopTout (s : State) (k : Nat) : State :=
  s.when s.loopsOn (fun s => (List.range 4).foldl (fun s n =>
    let l := s.loop n
    if l.runs && (l.gmode == 1 || l.gmode == 2) && l.gtout == k then s.setLoop n { l with due := l.due + 1 } else s) s)

/-- GATE_WINDOW_OPEN (R426, R427). -/
def State.gateOpen (s : State) (n : Fin 4) : State :=
  let l := s.loop n
  if !s.loopsOn || l.due == 0 then s
  else
    let l := { l with due := l.due - 1, opens := l.opens + 1 }
    let s := s.bump (figLoops 3 n 5)
    if l.gmode ≠ 0 ∧ s.red.drive = none then s.setLoop n l
    else if l.gmode = 1 then s.setLoop n l.pwmStart
    else if l.gmode = 2 then s.setLoop n (if l.runs && !l.off then l.drive true else l)
    else s.setLoop n { l with opens := 0 }

/-- GATE_WINDOW_CLOSE (R426): the close of an opening that a later one has moved changes nothing. -/
def State.gateClose (s : State) (n : Fin 4) : State :=
  let l := s.loop n
  if !s.loopsOn || l.opens == 0 then s
  else
    let l := { l with opens := l.opens - 1 }
    s.setLoop n (if l.opens = 0 then { l.drive false with onPhase := false } else l)

/-! ### Derating (R424, R425) -/

/-- The byte of string n in the header of the derating table: DEN, DIRN, ENT. -/
def State.derByte (s : State) (n : Nat) : Nat := bitsAt (numAt (s.table idDerating) 0 8) (8 * n) 8

/-- A knot of a string part: X and SCALE. -/
def State.derKnot (s : State) (n i : Nat) : Int × Int :=
  let w := numAt (s.table idDerating) (16 + 144 * n + 16 + 8 * i) 8
  (signed 32 (bitsAt w 32 32), (bitsAt w 0 17 : Nat))

/-- SCALE between two knots, rounded down. -/
def scaleBetween (v : Int) : List (Int × Int) → Option Int
  | a :: b :: l =>
    if v < b.1 then some (a.2 + (v - a.1) * (b.2 - a.2) / (b.1 - a.1)) else scaleBetween v (b :: l)
  | _ => none

/-- SCALE of a VALUE, clamped to the first and last knots (R425). -/
def State.derScale (s : State) (n : Nat) (v : Int) : Nat :=
  let k := bitsAt (numAt (s.table idDerating) (16 + 144 * n + 8) 8) 0 4
  let ks := (List.range (if k = 0 then 16 else k)).map (s.derKnot n)
  let first := ks.headD (0, 65536)
  let last := ks.getLastD (0, 65536)
  (if v ≤ first.1 then first.2 else if last.1 ≤ v then last.2 else (scaleBetween v ks).getD last.2).toNat

/-- States of a string after a result of its lamp entry (R425). -/
def State.derate (s : State) (n : Nat) (value : Int) (ok : Bool) : State :=
  let l := s.loop n
  let cur := l.scaleWait.getD (l.scale, l.offHot, l.offNtc)
  if ok then
    let w := numAt (s.table idDerating) (16 + 144 * n) 8
    let xoff := signed 32 (bitsAt w 32 32)
    let hys : Int := bitsAt w 0 32
    let d : Int := if bitAt (s.derByte n) 6 then xoff - value else value - xoff
    let hot := if 0 < d then true else if d < -hys then false else cur.2.1
    s.setLoop n { l with scaleWait := some (s.derScale n value, hot, false) }
  else
    let t := s.setLoop n { l with scaleWait := some (cur.1, cur.2.1, true) }
    if cur.2.2 then t else t.post .lampntc []

/-- A new result of a regular entry reaches the strings that it derates. -/
def State.derateAll (s : State) (entry : Nat) (value : Int) (ok : Bool) : State :=
  (List.range 4).foldl (fun s n =>
    let b := s.derByte n
    if bitAt b 7 && bitsAt b 0 6 == entry then s.derate n value ok else s) s

/-- LAMPNTC (R425): no result of the entry for 1 s. -/
def State.lampNtc (s : State) (n : Fin 4) : State :=
  let b := s.derByte n
  let fresh := match Tbl.get none s.mon.results (bitsAt b 0 6) with
    | some r => decide (s.aonCycles < r.at_ + 50000000)
    | none => false
  if s.loopsOn && bitAt b 7 && !fresh then s.derate n 0 false else s

/-! ### Settings (R411, R412) -/

/-- The fields of a loop's five words are in range (R413); ranges that the At SEED value of a word misses hold of enabled loops. -/
def loopWordsOk (n : Nat) (l : LoopSt) (runFor : Nat → Bool) : Bool :=
  let str := decide (n < 4)
  let z := fun (w : BitVec 64) lo len => bitsAt w.toNat lo len == 0
  let per := bitsAt l.w0.toNat 34 14
  z l.w0 0 10 && z l.w3 0 4 && z l.w4 0 16 &&
    l.fbsrc != 3 && (str || !l.en || l.fbsrc != 0) && (!str || (z l.w0 54 1 && z l.w0 52 2 && z l.w0 48 4)) &&
    bitsAt l.w0.toNat 52 2 != 3 && decide (1 ≤ per) && decide (per ≤ 10000) &&
    (!(str && l.en) || (decide (1 ≤ l.h) && decide (l.h ≤ 1023) && decide (128 ≤ l.setpt) && decide (l.setpt ≤ 3840))) &&
    decide (1 ≤ l.fetime) && l.nfrz != 1 && decide (l.res ≤ 16) && decide (1600 ≤ l.pwmper) && decide (l.pwmper ≤ 800000) &&
    decide (2 ^ l.res ≤ l.pwmper) && decide (l.dutyCode < 2 ^ l.res) && l.gmode != 3 && (str || l.gmode == 0) &&
    decide (128 ≤ bitsAt l.w4.toNat 40 24) && (l.gmode == 0 || decide (1 ≤ bitsAt l.w4.toNat 16 24)) &&
    (l.fbsrc != 1 || runFor (8 + n))

/-- The words of loop n in a block. -/
def blockLoop (b : List Byte) (n : Nat) : LoopSt :=
  let w := fun i => BitVec.ofNat 64 (leAt b (40 * n + 8 * i) 8)
  { LoopSt.init with w0 := w 0, w1 := w 1, w2 := w 2, w3 := w 3, w4 := w 4 }

/-- An enabled injected entry names a trigger (R397, R413). -/
def State.namesTrigger (s : State) (t : Nat) : Bool :=
  s.mon.injected.any (fun e => e.2.getLsbD 63 && bitsAt e.2.toNat 7 4 == t)

/-- Resources of an enabled loop: type, index, user (R411). -/
def loopNeeds (n : Nat) (l : LoopSt) : List (Nat × Nat × Nat) :=
  if !l.en then []
  else if n < 4 then [(resLed, n, userLed)]
  else [(resLoop, n, userLoop), (resMf, bitsAt l.w0.toNat 48 4, userLoop)]

/-- A written set of words reaches a loop (R412). -/
def LoopSt.write (l x : LoopSt) : LoopSt :=
  let now := { l with w0 := x.w0, w1 := x.w1, w2 := x.w2, w3 := x.w3, w4 := x.w4, wait := none, waitPwm := none }
  if !x.en then { now.safe with starting := false, onPhase := false }
  else if !l.en || l.fault.isSome then now.start
  else { l with wait := some (x.w0, x.w1, x.w2, x.w3), waitPwm := some (x.w3, x.w4) }

/-- A loop settings block: its status, and the state after (R412). -/
def State.writeLoops (s : State) (b : List Byte) : Status × State :=
  let xs := (List.range 8).map (fun n => (n, blockLoop b n))
  if b.length ≠ 320 ∨ xs.any (fun x => !loopWordsOk x.1 x.2 s.namesTrigger) then (.illegal, s)
  else
    let needs := xs.flatMap (fun x => loopNeeds x.1 x.2)
    if needs.any (fun r => !s.mayTake r.1 r.2.1 r.2.2) then (.conflict, s)
    else
      let s := needs.foldl (fun s r => s.takeClaim r.1 r.2.1 r.2.2) s
      (.ok, xs.foldl (fun s x =>
        let anew := x.2.en && !(s.loop x.1).runs
        let s := s.modLoop x.1 (fun l => l.write x.2)
        if anew then s.requestRun x.1 else s) s)

/-- Every loop goes to its safe state without a fault (R429). -/
def State.loopsSafe (s : State) : State :=
  (List.range 8).foldl (fun s n => s.modLoop n (fun l => { l.safe with onPhase := false, opens := 0, due := 0 })) s

/-- Each enabled loop starts on return from fallow or frost (R429). -/
def State.loopsReturn (s : State) : State :=
  (List.range 8).foldl (fun s n => (s.modLoop n (fun l => if l.runs then l.start else l)).requestRun n) s

/-- In the gap of a switch-over the outputs are in their safe states; the period that it cuts is dropped (R369, R428). -/
def State.loopsGap (s : State) : State :=
  (List.range 8).foldl (fun s n => s.modLoop n (fun l => { l.safe with onPhase := false, sample := none, changes := 0 })) s

/-- After the gap each loop begins a new period from the state taken over, and a window still open resumes (R428). -/
def State.loopsResume (s : State) : State :=
  (List.range 8).foldl (fun s n =>
    let s := s.modLoop n (fun l =>
      if 4 ≤ n then l else if l.gmode = 2 then (if l.runs && !l.off && l.opens != 0 then l.drive true else l) else l.pwmStart)
    s.requestRun n) s

/-! ### Meanings -/

def execLcsCrossing (n : Fin 4) (lcs : Nat) (s : State) : Host.Outcome State Fault Refusal := .next (s.lcsCrossing n lcs)

def execLoopPeriod (n : Fin 8) (lcsSum onCycles cycles : Nat) (over400 : Bool) (s : State) : Host.Outcome State Fault Refusal :=
  .next (s.loopPeriod n lcsSum onCycles cycles over400)

def execPwmPeriod (n : Fin 4) (s : State) : Host.Outcome State Fault Refusal := .next (s.pwmPeriod n)

def execPwmOnEnd (n : Fin 4) (s : State) : Host.Outcome State Fault Refusal := .next (s.pwmOnEnd n)

def execGateWindowOpen (n : Fin 4) (s : State) : Host.Outcome State Fault Refusal := .next (s.gateOpen n)

def execGateWindowClose (n : Fin 4) (s : State) : Host.Outcome State Fault Refusal := .next (s.gateClose n)

def execLampNtc (n : Fin 4) (s : State) : Host.Outcome State Fault Refusal := .next (s.lampNtc n)

def execLdgHoldEnd (n : Fin 4) (lcs : Nat) (s : State) : Host.Outcome State Fault Refusal := .next (s.holdEnd n lcs)

end Sys2Proof.Machine
end

