-- ==== Sys2Proof/Machine/Monitor.lean ====
section
/-!
DEFINITION. The monitoring front end: settings, sequences, entries, results and wire breaks (R384 to R400).
-/

namespace Sys2Proof.Machine

/-! ### Entry words (R386, R393) -/

def meEn (w : Nat) : Bool := bitAt w 63
def meKind (w : Nat) : Nat := bitsAt w 61 2
def meInp (w : Nat) : Nat := bitsAt w 56 5
def meInn (w : Nat) : Nat := bitsAt w 51 5
def meNeg (w : Nat) : Nat := bitsAt w 49 2
def meRatio (w : Nat) : Bool := bitAt w 48
def meI0 (w : Nat) : Bool := bitAt w 45
def meP0 (w : Nat) : Nat := bitsAt w 40 5
def meI1 (w : Nat) : Bool := bitAt w 39
def meP1 (w : Nat) : Nat := bitsAt w 34 5
def meIdac (w : Nat) : Nat := bitsAt w 27 7
def meBurn (w : Nat) : Bool := bitAt w 26
def meDis (w : Nat) : Nat := bitsAt w 21 5
def meAvg (w : Nat) : Nat := bitsAt w 11 4
def meTrig (w : Nat) : Nat := bitsAt w 7 4
def meNoRec (w : Nat) : Bool := bitAt w 6

def Monitor.excen (m : Monitor) : Bool := m.header.getLsbD 62
def Monitor.nreg (m : Monitor) : Nat := bitsAt m.header.toNat 54 7

/-- An entry in force, as a number. -/
def Monitor.regEntry (m : Monitor) (i : Nat) : Nat := (Tbl.get 0 m.regular i).toNat
def Monitor.injEntry (m : Monitor) (i : Nat) : Nat := (Tbl.get 0 m.injected i).toNat

/-- Figure of ENVIRON (R410). -/
def figEnviron (row : Nat) (q : Nat := 0) (idx : Nat := whole) (hub : Nat := 0) : Fig := ⟨0x0A, row, q, hub, idx⟩

/-- The front end runs: outside fallow, frost and TRIPPED (R392). -/
def State.frontOn (s : State) : Bool := s.live && !deepState s.node.pstate

/-! ### The settings block (R385, R386, R393) -/

def headerWordOk (w : Nat) : Bool := bitsAt w 0 30 == 0 && decide (bitsAt w 54 7 ≤ 64)

def diodeWordOk (w : Nat) : Bool :=
  bitsAt w 0 16 == 0 && [bitsAt w 48 16, bitsAt w 24 16].all (fun n => decide (29491 ≤ n) && decide (n ≤ 36044))

/-- An entry is in range; `reg` a regular one (R393). -/
def entryOk (reg : Bool) (w : Nat) : Bool :=
  let k := meKind w
  k != 3 && meNeg w != 3 && bitsAt w 0 6 == 0 && decide (1 ≤ meDis w) && decide (meDis w ≤ 20) && decide (meAvg w ≤ 8) &&
    (!reg || meTrig w == 0) && (k != 1 || decide (meInp w ≤ 1)) && (k != 2 || decide (meInp w ≤ 6)) &&
    (!(meI0 w || meI1 w) || (decide (1 ≤ meIdac w) && decide (meIdac w ≤ 100))) &&
    !(meI0 w && meI1 w && meP0 w == meP1 w) && (k == 0 || !(meRatio w || meI0 w || meI1 w || meBurn w))

/-- Resources that an enabled entry names, as type and index (R385). -/
def entryNeeds (w : Nat) : List (Nat × Nat) :=
  if !meEn w then []
  else
    (if meKind w = 0 then [(resMon, meInp w)] else []) ++
    (if meKind w = 0 ∧ meNeg w = 0 then [(resMon, meInn w)] else []) ++
    (if meI0 w then [(resSource, 0), (resMon, meP0 w)] else []) ++
    (if meI1 w then [(resSource, 1), (resMon, meP1 w)] else []) ++
    (if meRatio w || meNeg w == 2 then [(resExc, 0)] else [])

/-- A resource may be used: by monitoring, or, for an entry that loop n triggers, as the loop engine or the LED drive holds it
(R385). The manual's claims carry no loop number, so any loop's claim serves. -/
def State.entryMay (s : State) (w : Nat) (r : Nat × Nat) : Bool :=
  s.mayTake r.1 r.2 userMon ||
    (decide (8 ≤ meTrig w) && (s.mayTake r.1 r.2 userLoop || s.mayTake r.1 r.2 userLed))

def blockWord (b : List Byte) (off : Nat) : BitVec 64 := BitVec.ofNat 64 (leAt b off 8)

/-- Entries of a block from an offset. -/
def blockEntries (b : List Byte) (off n : Nat) : Tbl (BitVec 64) :=
  (List.range n).foldl (fun t i => Tbl.set 0 t i (blockWord b (off + 8 * i))) []

/-- A monitor settings block: its status, and the state after (R385). -/
def State.writeMonitor (s : State) (b : List Byte) : Status × State :=
  let reg := (List.range 64).map (fun i => (blockWord b (0x10 + 8 * i)).toNat)
  let inj := (List.range 8).map (fun i => (blockWord b (0x210 + 8 * i)).toNat)
  if b.length ≠ 592 ∨ headerWordOk (leAt b 0 8) = false ∨ diodeWordOk (leAt b 8 8) = false ∨ reg.all (entryOk true) = false ∨
      inj.all (entryOk false) = false then (.illegal, s)
  else
    let used := (reg.take (bitsAt (leAt b 0 8) 54 7)) ++ inj
    if used.any (fun w => (entryNeeds w).any (fun r => !s.entryMay w r)) then (.conflict, s)
    else
      let s := used.foldl (fun s w => (entryNeeds w).foldl (fun s r => s.takeClaim r.1 r.2 userMon) s) s
      (.ok, { s with mon := { s.mon with
        regWait := some (blockWord b 0, blockWord b 8, blockEntries b 0x10 64), injWait := some (blockEntries b 0x210 8) } })

/-! ### Sequences (R394 to R398) -/

/-- The next enabled regular entry of the pass from a number on (R393, R394). -/
def Monitor.nextReg (m : Monitor) (i : Nat) : Option Nat :=
  (List.range m.nreg).find? (fun e => decide (i ≤ e) && meEn (m.regEntry e))

/-- Begin an entry with its break (R389). -/
def Monitor.begin (m : Monitor) (inj : Bool) (e : Nat) : Monitor := { m with cur := some ⟨inj, e, .brk⟩ }

/-- The regular sequence goes on: the abandoned entry again, else the next of the pass, else the pass ends (R394, R395). -/
def State.regularOn (s : State) : State :=
  let m := s.mon
  if m.pause then { s with mon := { m with cur := none } }
  else
    match m.abandoned with
    | some e => { s with mon := { m.begin false e with abandoned := none } }
    | none =>
      if !m.pass then { s with mon := { m with cur := none } }
      else
        match m.nextReg m.next with
        | some e => { s with mon := { m.begin false e with next := e + 1 } }
        | none => ({ s with mon := { m with cur := none, pass := false } }).bump (figEnviron 4 0)

/-- Priority of a trigger, the lowest first (R397). -/
def trigPriority (t : Nat) : Nat :=
  if t = 1 then 0 else if 8 ≤ t then t else if t < 6 then 20 + t else if t = 6 then 30 else 31

/-- The trigger of highest priority among those pending. -/
def bestTrigger (l : List Nat) : Option Nat :=
  l.foldl (fun b t => match b with
    | none => some t
    | some u => if trigPriority t < trigPriority u then some t else some u) none

/-- Injected entries that a trigger runs, in ascending number. -/
def Monitor.entriesOf (m : Monitor) (t : Nat) : List Nat :=
  (List.range 8).filter (fun i => meEn (m.injEntry i) && meTrig (m.injEntry i) == t)

/-- A run of a trigger begins; a block that waits takes effect (R385, R398). -/
def State.beginRun (s : State) (t : Nat) : State :=
  let m := match s.mon.injWait with
    | some e => { s.mon with injected := e, injWait := none }
    | none => s.mon
  let todo := m.entriesOf t
  let s := s.bump (figEnviron 4 2 t)
  match todo with
  | e :: l => { s with mon := { m.begin true e with trig := some t, todo := l } }
  | [] => { s with mon := { m with trig := none, todo := [], cur := none } }

/-- The next thing to convert once no entry is in progress: a pending run, else the regular sequence (R398). -/
def State.nextRun (s : State) : Nat → State
  | 0 => s
  | n + 1 =>
    match bestTrigger s.mon.pending with
    | some t =>
      let s := ({ s with mon := { s.mon with pending := s.mon.pending.erase t } }).beginRun t
      if s.mon.cur.isSome then s else s.nextRun n
    | none => s.regularOn

/-- The regular entry in progress is abandoned (R395, R396). -/
def State.abandon (s : State) : State :=
  match s.mon.cur with
  | some r =>
    if r.inj then s
    else ({ s with mon := { s.mon with cur := none, abandoned := some r.entry } }).bump (figEnviron 4 1)
  | none => s

/-- A trigger reaches the monitor and loop domain (R398). -/
def State.trigger (s : State) (t : Nat) : State :=
  if s.mon.trig.isSome then
    if s.mon.pending.contains t then s.bump (figEnviron 4 3 t)
    else { s with mon := { s.mon with pending := s.mon.pending ++ [t] } }
  else
    let s := s.abandon.beginRun t
    if s.mon.cur.isSome then s else s.nextRun 16

/-- A source raises a trigger. -/
def State.raise (s : State) (t : Nat) : State := { s with mon := { s.mon with arriving := s.mon.arriving ++ [t] } }

/-- INJECTED_TRIGGER (R398): a raised trigger arrives; triggers in fallow or frost are dropped (R392). -/
def State.injectedTrigger (s : State) (t : Nat) : State :=
  if !s.mon.arriving.contains t then s
  else
    let s : State := { s with mon := { s.mon with arriving := s.mon.arriving.erase t } }
    if s.frontOn then s.trigger t else s

/-- REGULAR_PASS (R394): a block that waits takes effect, and the first entry begins. -/
def State.regularPass (s : State) : State :=
  if !s.frontOn || s.mon.pass || s.mon.pause || s.mon.trig.isSome then s
  else
    let m := match s.mon.regWait with
      | some (h, d, e) => { s.mon with header := h, diode := d, regular := e, regWait := none }
      | none => s.mon
    if m.nreg = 0 then { s with mon := m }
    else ({ s with mon := { m with pass := true, next := 0, abandoned := none } }).regularOn

/-- BLANK_PAUSE_END (R396, R397). -/
def State.blankPauseEnd (s : State) : State :=
  if !s.mon.pause || s.mon.blank then s
  else
    let s := ({ s with mon := { s.mon with pause := false } }).raise 6
    if s.mon.cur.isNone && s.mon.trig.isNone && s.frontOn then s.regularOn else s

/-! ### Conversions (R390, R391, R393, R399, R400) -/

def Monitor.slice (m : Monitor) (i : Nat) : AdcSlice := Tbl.get AdcSlice.init m.slices i

/-- A corrected code of the 16-bit converter. -/
def AdcSlice.correct16 (x : AdcSlice) (raw : Int) : Int :=
  let y := if 0 ≤ x.den then roundDiv (x.off + x.mul * raw) x.den.toNat else roundDiv (-(x.off + x.mul * raw)) (-x.den).toNat
  clampInt (-32768) 32767 (if x.den = 0 then raw else y)

/-- Pairs of the offline slice, made with every 4th conversion (R391). -/
def Monitor.addPairs (m : Monitor) : List Int → List Int → Monitor
  | [], _ => m
  | y :: ys, off =>
    let m := { m with conversions := m.conversions + 1 }
    if m.conversions % 4 = 0 then
      match off with
      | x :: xs => ({ m with pairs := m.pairs.add x y }).addPairs ys xs
      | [] => m.addPairs ys []
    else m.addPairs ys off

/-- The rotation after 4,096 pairs (R391): as R91, with 5 slices. -/
def State.monRotate (s : State) : State :=
  let m := s.mon
  if m.pairs.n < pairsPerStep then s
  else
    let r := s.fitPairs m.pairs
    let f := r.1
    let x := { m.slice m.offline with off := f.off, mul := f.mul, den := f.den }
    let timing := match s.red.active with
      | .a => m.mtimeWait
      | .b => m.mtimeWaitB
    { r.2 with mon := { m with
        slices := Tbl.set AdcSlice.init m.slices m.offline x, offline := (m.offline + 1) % 5, pairs := PairSums.zero
        mtime := timing, mismatch := f.mismatch, calq := m.calq.add 0 f.mismatch } }

/-- 10^18 × ln 16 (R393). -/
def ln16 : Nat := 2772588722239781238

/-- Differences of the pairs of conversions of a diode entry. -/
def pairDiffs : List Int → List Int
  | a :: b :: l => (b - a) :: pairDiffs l
  | _ => []

/-- Temperature of a diode entry in 1/256 °C (R393): an LSB is 156,250/32,768 µV, RSER in 1/8 Ω, n = NID / 32,768. -/
def diodeValue (nid rser : Nat) (codes : List Int) : Int :=
  let ds := pairDiffs codes
  let n := ds.length
  let a : Int := 156250 * ds.sum - (614400 * rser * n : Nat)
  let den := 10 * n * nid * ln16
  if den = 0 then 0 else openDiv 9 (256 * a * 1160452 * 10 ^ 11 - (699264 * n * nid * ln16 : Nat)) den

/-- The result of a conversion: STAT and VALUE (R393, R399, R400). -/
def Monitor.result (m : Monitor) (w : Nat) (codes : List Int) : Nat × Int :=
  let n := codes.length
  let sum := codes.sum
  let mean := if n = 0 then 0 else 256 * sum / n
  let value :=
    if meKind w = 1 then
      let d := m.diode.toNat
      if meInp w = 0 then diodeValue (bitsAt d 48 16) (bitsAt d 40 8) codes
      else diodeValue (bitsAt d 24 16) (bitsAt d 16 8) codes
    else mean
  if (meBurn w && decide (32640 * 256 ≤ mean)) || (meRatio w && m.excen && m.excOpen) then (1, 0)
  else if codes.any (fun c => c == -32768 || c == 32767) then (2, value)
  else if meRatio w && !m.excen then (3, 0)
  else (0, value)

/-- A monitor sample record (R400). -/
def monRecord (inj : Bool) (e trig stat hub : Nat) (value : Int) (epoch coarse : Nat) : Rec128 :=
  BitVec.ofNat 128 (7 * 2 ^ 124 + b2n inj * 2 ^ 123 + e % 64 * 2 ^ 117 + trig % 16 * 2 ^ 113 + stat % 8 * 2 ^ 110 +
    hub % 2 * 2 ^ 109 + unsigned 32 value * 2 ^ 64 + epoch % 2 ^ 32 * 2 ^ 32 + coarse % 2 ^ 24 * 2 ^ 8)

/-- A result of entry e reaches its loops (R416), the derating (R425) and the latest values. -/
def State.giveResult (s : State) (r : MonRun) (trig stat : Nat) (value : Int) : State :=
  let x : MonResult := ⟨stat, value, s.aonCycles⟩
  let s : State :=
    if r.inj then { s with mon := { s.mon with injResults := Tbl.set none s.mon.injResults r.entry (some x) } }
    else { s with mon := { s.mon with results := Tbl.set none s.mon.results r.entry (some x) } }
  let s := (List.range 8).foldl (fun s n =>
    let l := s.loop n
    let mine := l.runs && (if r.inj then l.fbsrc == 1 && trig == 8 + n else l.fbsrc == 2 && l.fent == r.entry)
    if !mine then s
    else
      let l := { l with sample := some (value, stat != 0) }
      s.setLoop n (if 4 ≤ n ∧ stat = 0 then l.onSample value else l)) s
  if r.inj then s else s.derateAll r.entry value (stat == 0)

/-- The entry in progress ends with a result (R389, R395, R398, R400). -/
def State.endEntry (s : State) (r : MonRun) (stat : Nat) (value : Int) (tick : BitVec 12) : State :=
  let w := if r.inj then s.mon.injEntry r.entry else s.mon.regEntry r.entry
  let trig := if r.inj then s.mon.trig.getD 0 else 0
  let s := if stat = 1 then s.bump (figEnviron 4 4 (if r.inj then 64 + r.entry else r.entry)) else s
  let hub := (s.red.drive.getD s.red.active).idx
  let s : State :=
    if meNoRec w then s
    else { s with core := { s.core with service := s.core.service ++
      [monRecord r.inj r.entry trig stat hub value s.clock.epoch.toNat
        (s.clock.slice.toNat * 4096 + tick.toNat / 8 * 8)] } }
  let s := s.giveResult r trig stat value
  if r.inj then
    match s.mon.todo with
    | e :: l => { s with mon := { s.mon.begin true e with todo := l } }
    | [] => ({ s with mon := { s.mon with cur := none, trig := none } }).nextRun 16
  else s.regularOn

/-- EXC is found open or closed; EXCOPEN is raised once (R399). -/
def State.noteExc (s : State) (isOpen : Bool) : State :=
  let o := isOpen && s.mon.excen
  let said := s.mon.excSaid
  let s : State := { s with mon := { s.mon with excOpen := o, excSaid := o } }
  if o && !said then s.post .excopen [] else s

/-- MONITOR_PHASE_END (R389): the next phase begins; the end of the conversion forms the result. -/
def State.phaseEnd (s : State) (samples : List (Fin 5 × Int)) (offline : List Int) (isOpen : Bool) (tick : BitVec 12) : State :=
  match s.mon.cur with
  | none => s
  | some r =>
    if !s.frontOn then s
    else
      let go := fun (p : MonPhase) => ({ s with mon := { s.mon with cur := some { r with phase := p } } } : State)
      match r.phase with
      | .brk => go .discharge
      | .discharge => go .settle
      | .settle => go .convert
      | .convert =>
        let s := s.noteExc isOpen
        let codes := samples.map (fun c => (s.mon.slice c.1).correct16 c.2)
        let s := ({ s with mon := s.mon.addPairs codes offline } : State).monRotate
        let w := if r.inj then s.mon.injEntry r.entry else s.mon.regEntry r.entry
        let x := s.mon.result w codes
        s.endEntry r x.1 x.2 tick

/-- COMPLIANCE_TRIP (R399): the conversion in progress that uses the open source ends with OPEN. -/
def State.complianceTrip (s : State) (c : Compliance) (tick : BitVec 12) : State :=
  if !s.frontOn then s
  else
    let s := match c with
      | .excOpen => s.noteExc true
      | .source => s
    match s.mon.cur with
    | none => s
    | some r =>
      let w := if r.inj then s.mon.injEntry r.entry else s.mon.regEntry r.entry
      let hit := match c with
        | .excOpen => meRatio w && s.mon.excOpen
        | .source => meI0 w || meI1 w
      if hit && r.phase != .brk then s.endEntry r 1 0 tick else s

/-- The front end goes off: the regular sequence restarts at entry 0 on return, and triggers are dropped (R392). -/
def State.frontOff (s : State) : State :=
  { s with mon := { s.mon with
      pass := false, next := 0, cur := none, abandoned := none, trig := none, todo := [], pending := [], arriving := [] } }

/-! ### Meanings -/

def execRegularPass (s : State) : Host.Outcome State Fault Refusal := .next s.regularPass

def execMonitorPhaseEnd (samples : List (Fin 5 × Int)) (offline : List Int) (excOpen : Bool) (tick : BitVec 12) (s : State) :
    Host.Outcome State Fault Refusal :=
  .next (s.phaseEnd samples offline excOpen tick)

def execInjectedTrigger (trig : BitVec 4) (s : State) : Host.Outcome State Fault Refusal :=
  .next (s.injectedTrigger trig.toNat)

def execBlankPauseEnd (s : State) : Host.Outcome State Fault Refusal := .next s.blankPauseEnd

def execComplianceTrip (which : Compliance) (tick : BitVec 12) (s : State) : Host.Outcome State Fault Refusal :=
  .next (s.complianceTrip which tick)

end Sys2Proof.Machine
end

