-- ==== Sys2Proof/Machine/Thermal.lean ====
section
/-!
DEFINITION. The thermal supervisor: die sensors, bands, alarm, throttling, the trip and the safety current loops (R7, R30, R31,
R401 to R409).
-/

namespace Sys2Proof.Machine

/-! ### Readings and votes (R401), in quarter degrees -/

/-- Dies of the sensor bus: hub A 0, FE dies 1 to 8, hub B 9. -/
def dies : List Nat := List.range 10

/-- A reading outside −60 to +150 °C marks its sensor faulty. -/
def readingBad (q : Int) : Bool := decide (q < -240) || decide (600 < q)

/-- Readings of the working sensors of a die. -/
def Thermal.working (t : Thermal) (die : Nat) : List Int :=
  (List.range 4).filterMap (fun k => if t.faulty.getLsbD (4 * die + k) then none else Tbl.get none t.read (4 * die + k))

/-- The readings of the four sensors of a die. -/
def Thermal.readings (t : Thermal) (die : Nat) : List Int := (List.range 4).filterMap (fun k => Tbl.get none t.read (4 * die + k))

/-- The largest of a list. -/
def maxOf : List Int → Option Int
  | [] => none
  | x :: l => some (l.foldl (fun a b => if a < b then b else a) x)

/-- The voted temperature: the second-highest working sensor, the only one, or invalid. -/
def Thermal.voted (t : Thermal) (die : Nat) : Option Int :=
  let l := t.working die
  match maxOf l with
  | none => none
  | some m => if l.length = 1 then some m else maxOf (l.erase m)

/-- Dies of a hub's view: its own and the eight FE dies (R402). -/
def viewOf : Hub → List Nat
  | .a => List.range 9
  | .b => (List.range 9).map (· + 1)

/-- Voted temperatures of a view, the invalid ones left out. -/
def Thermal.view (t : Thermal) (h : Hub) : List Int := (viewOf h).filterMap t.voted

/-- Read the forty sensors; each that is newly out of range raises SENSFAULT. -/
def State.readSensors (s : State) (quarters : List Int) : State :=
  (List.range 40).foldl (fun s i =>
    match quarters[i]? with
    | none => s
    | some q =>
      let t := s.thermal
      let bad := readingBad q
      let s : State := { s with thermal := { t with
        read := Tbl.set none t.read i (some q), faulty := if bad then t.faulty ||| BitVec.ofNat 40 (2 ^ i) else t.faulty } }
      let die := i / 4
      let org := if die = 0 then some Hub.a else if die = 9 then some Hub.b else none
      if bad && !t.faulty.getLsbD i && s.live then s.post .sensfault [] org else s) s

/-! ### Bands (R30, R31) -/

/-- Lower boundaries of B1 to B4. -/
def bandEdge (b : Nat) : Int := -60 + 120 * ((b : Int) - 1)

/-- The band of a first reading. -/
def bandDirect (q : Int) : Nat := ([1, 2, 3, 4].filter (fun b => decide (bandEdge b ≤ q))).length

/-- One evaluation of a band: up at the boundary above, down 3 °C below the boundary beneath. -/
def bandMove (b : Nat) (q : Int) : Nat :=
  if b < 4 ∧ bandEdge (b + 1) ≤ q then b + 1 else if 0 < b ∧ q < bandEdge b - 12 then b - 1 else b

/-- The band of a die, by its code (R16). -/
def State.setBand (s : State) (die b : Nat) : State :=
  { s with thermal := { s.thermal with bands := Tbl.set 0 s.thermal.bands die (bandCode b) } }

/-- The band of a die moves: it is logged, and what it selects is scheduled (R31). In TRIPPED only the always-on domain runs, and the
band alone changes (R17). -/
def State.moveBand (s : State) (die b : Nat) : State :=
  let s := s.setBand die b
  let org := if die = 0 then some Hub.a else if die = 9 then some Hub.b else none
  let s := s.when s.live (fun s => s.post .band [] org)
  if !s.live || !s.loaded then s
  else if die = 0 then s.seedHub .a
  else if die = 9 then s.seedHub .b
  else s.seedDie (Fin.ofNat 8 (die - 1))

/-- The bands follow the hottest of each die's four sensors (R30). -/
def State.evalBands (s : State) : State :=
  let first := !s.thermal.bandsSet
  let s := dies.foldl (fun s die =>
    match maxOf (s.thermal.readings die) with
    | none => s
    | some q =>
      let old := s.band die
      if first then s.setBand die (bandDirect q)
      else
        let b := bandMove old q
        if b = old then s else s.moveBand die b) s
  { s with thermal := { s.thermal with bandsSet := true } }

/-! ### Alarm and throttling (R402, R403) -/

def Thermal.alarm (t : Thermal) : Hub → Bool
  | .a => t.alarmA
  | .b => t.alarmB

/-- THERMALARM of a hub: raised at 100 °C, cleared with every voted temperature below 97 °C. -/
def State.evalAlarm (s : State) (h : Hub) : State :=
  let v := s.thermal.view h
  let set := fun (b : Bool) => ({ s with thermal := match h with
    | .a => { s.thermal with alarmA := b }
    | .b => { s.thermal with alarmB := b } } : State)
  let on := v.any (fun q => decide (400 ≤ q))
  if on && !s.thermal.alarm h then
    (set true).when s.live (fun s => ((s.post .thermalarm [] (some h)).cause 2).raise 1)
  else if s.thermal.alarm h && v.all (fun q => decide (q < 388)) then
    (set false).when s.live (fun s => (s.postClear .thermalarm [] (some h)).cause 2)
  else s

/-- One step of a throttle level. -/
def throttleMove (n : Nat) (q : Int) : Nat :=
  if n < 7 ∧ 400 + 8 * (n : Int) ≤ q then n + 1
  else if 0 < n ∧ q < 400 + 8 * ((n : Int) - 1) - 12 then n - 1
  else n

/-- The throttle level of a hub moves by at most one step. -/
def State.evalThrottle (s : State) (h : Hub) : State :=
  match maxOf (s.thermal.view h) with
  | none => s
  | some q =>
    let old := match h with
      | .a => s.thermal.levelA
      | .b => s.thermal.levelB
    let n := throttleMove old q
    if n = old then s
    else
      let s : State := { s with thermal := match h with
        | .a => { s.thermal with levelA := n }
        | .b => { s.thermal with levelB := n } }
      s.when s.live (fun s => s.post .throttle [] (some h))

/-- The larger level of the two hubs enters through the always-on gate (R358). -/
def State.sendThrottle (s : State) : State :=
  let t := s.thermal
  let n := if s.red.lockstep then max t.levelA t.levelB else match s.red.active with
    | .a => t.levelA
    | .b => t.levelB
  (s.gateStamp .a .always (.throttle .a (levelCode n))).gateStamp .b .always (.throttle .b (levelCode n))

/-! ### The safety current loops (R408, R409), in 1/256 mA -/

def loopLo (w : Nat) : Int := signed 16 (bitsAt w 39 16)
def loopHi (w : Nat) : Int := signed 16 (bitsAt w 23 16)
def loopTest (w : Nat) : Nat := bitsAt w 10 13

/-- A loop settings word is in range (R408). -/
def loopWordOk (w : Nat) : Bool :=
  bitsAt w 0 10 == 0 && decide (bitsAt w 61 3 ≤ 5) && loopLo w != loopHi w &&
    (bitsAt w 61 3 != 5 || (decide (896 ≤ loopTest w) && decide (loopTest w ≤ 5632)))

/-- A latest result that is valid and not older than 1 s (R409). -/
def State.validResult (s : State) (r : Option MonResult) : Option Int :=
  match r with
  | some x => if x.stat = 0 ∧ s.aonCycles ≤ x.at_ + 50000000 then some x.value else none
  | none => none

/-- The latest result of remote diode k, in 1/64 °C / 256. -/
def State.diodeTemp (s : State) (k : Nat) : Option Int :=
  let of := fun (rs : Tbl (Option MonResult)) (word : Nat → Nat) =>
    rs.filterMap (fun p => if meKind (word p.1) = 1 ∧ meInp (word p.1) = k then p.2 else none)
  let all := of s.mon.results s.mon.regEntry ++ of s.mon.injResults s.mon.injEntry
  let last : Option MonResult := all.foldl (fun (b : Option MonResult) (r : MonResult) => match b with
    | none => some r
    | some u => if u.at_ ≤ r.at_ then some r else some u) none
  (s.validResult last).map (fun v => 64 * v)

/-- The hottest voted temperature of a view in 1/64 °C / 256; invalid when any die's is. -/
def State.hottest (s : State) (h : Hub) : Option Int :=
  if (viewOf h).all (fun d => (s.thermal.voted d).isSome) then (maxOf (s.thermal.view h)).map (fun q => 4096 * q) else none

/-- The value of a loop's source (R408), in 1/256 of the unit of LO and HI, as exactly as the source has it. -/
def State.loopSource (s : State) (h : Hub) (w : Nat) : Option Int :=
  match bitsAt w 61 3 with
  | 0 => s.hottest h
  | 1 => s.diodeTemp 0
  | 2 => s.diodeTemp 1
  | 3 =>
    match s.hottest h, s.diodeTemp 0, s.diodeTemp 1 with
    | some a, some b, some c => some (max a (max b c))
    | _, _, _ => none
  | _ => s.validResult (Tbl.get none s.mon.results (bitsAt w 55 6))

/-- The current for a value in 1/256 of the unit of LO and HI: 4 + 16 (x − LO) / (HI − LO) mA within 3.8 to 20.5 mA (R409). -/
def loopCurrent (lo hi x : Int) : Nat :=
  let n := if lo < hi then 16 * (x - 256 * lo) else 16 * (256 * lo - x)
  (clampInt 973 5248 (1024 + openDiv 8 n (hi - lo).natAbs)).toNat

/-- LOOP_CURRENT_UPDATE (R409): the drive from the source, or a fault level, 3.5 mA while PWRGD is low (R472); a measured current below 1 mA raises LOOPOPEN. -/
def State.evalLoop (s : State) (h : Hub) (meas : Nat) : State :=
  let l := match h with
    | .a => s.loopA
    | .b => s.loopB
  let w := l.word.toNat
  let i :=
    if s.node.tripped then 5632
    else if !s.node.pwrgd then 896
    else if bitsAt w 61 3 = 5 then loopTest w
    else match s.loopSource h w with
      | some x => loopCurrent (loopLo w) (loopHi w) x
      | none => 896
  let isOpen := decide (meas < 256)
  let l' := { l with set_ := i, meas := meas, openSaid := isOpen }
  let s : State := match h with
    | .a => { s with loopA := l' }
    | .b => { s with loopB := l' }
  if isOpen && !l.openSaid && s.live then (s.bump (figEnviron 5 3 h.idx)).post .loopopen [] (some h) else s

/-! ### EVALUATION -/

/-- Every voted temperature of the node is below 95 °C (R406). -/
def Thermal.cooled (t : Thermal) : Bool :=
  dies.all (fun d => match t.voted d with
    | some q => decide (q < 380)
    | none => false)

/-- EVALUATION (R30, R401 to R403, R406, R409): every 100 µs, in every state. -/
def State.evaluation (s : State) (quarters : List Int) (measA measB : Nat) : State :=
  let s : State := { s with clock := { s.clock with evals := s.clock.evals + 1 } }
  let s := s.readSensors quarters
  let s := if !s.live && !s.node.tripped then s else
    (((s.evalBands.evalAlarm .a).evalAlarm .b).evalThrottle .a).evalThrottle .b
  let t := s.thermal
  let s :=
    if s.live then
      let s : State := { s with thermal := { t with atLevel := Tbl.set 0 t.atLevel t.level (Tbl.get 0 t.atLevel t.level + 1) } }
      s.sendThrottle
    else if s.node.tripped then
      { s with thermal := { t with cool := if t.cooled then some (t.cool.getD s.clock.evals) else none } }
    else s
  (s.evalLoop .a measA).evalLoop .b measB

/-- LOOPFAULT (R409). -/
def State.loopFaultRow (s : State) (h : Hub) : State :=
  let l := match h with
    | .a => s.loopA
    | .b => s.loopB
  if s.live && decide (64 < ((l.set_ : Int) - l.meas).natAbs) then
    (s.bump (figEnviron 5 2 h.idx)).post .loopfault [] (some h)
  else s

/-! ### The trip (R404 to R406) -/

/-- Evaluations in one hour and in one second. -/
def hourEvals : Nat := 36000000
def secondEvals : Nat := 10000

/-- Trips within the past hour (R406). -/
def State.recentTrips (s : State) : List Nat := s.thermal.trips.filter (fun t => decide (s.clock.evals < t + hourEvals))

/-- TRIPPED may be left by itself (R406). -/
def State.mayRestart (s : State) : Bool :=
  s.node.pwrgd && s.node.tripped && !s.thermal.latch &&
    (match s.thermal.cool with
     | some t => decide (t + secondEvals ≤ s.clock.evals)
     | none => false)

/-! ### Meanings -/

def execEvaluation (quarters : List Int) (measA measB : Nat) (s : State) : Host.Outcome State Fault Refusal :=
  .next (s.evaluation quarters measA measB)

def execLoopFault (h : Hub) (s : State) : Host.Outcome State Fault Refusal := .next (s.loopFaultRow h)

/-- RAILFAULT (R452, R475): the event, and nothing more. -/
def execRailFault (die : Fin 10) (_rail : Fin 7) (s : State) : Host.Outcome State Fault Refusal :=
  .next (s.when s.live (fun s => s.post .railfault []
    (if die.val = 0 then some Hub.a else if die.val = 9 then some Hub.b else none)))

/-- XTAL_STOP (R404): the trip filter and the loops run on from the internal oscillator. -/
def execXtalStop (s : State) : Host.Outcome State Fault Refusal :=
  .next { s with thermal := { s.thermal with xtal := false } }

end Sys2Proof.Machine
end

