-- ==== Sys2Proof/Machine/Tallies.lean ====
section
/-!
DEFINITION. The tally units: stamps, gates, the regression, and difference runs with the skew table (R71, R74 to R83).
-/

namespace Sys2Proof.Machine

/-- A unit's source keeps the XTAL timebase (R74). -/
def TallySetup.xtal (x : TallySetup) : Bool := decide (x.src ≤ 2)

/-- Length of a gate in fine units of its timebase (R77). -/
def TallySetup.length (x : TallySetup) : Nat :=
  if x.xtal then x.gate * 1200000 * 512 else x.gate * 1280000 * 512

/-! ### The hub TDCs (R74) -/

/-- The place of a hub TDC beside the channel TDCs: REFCLK 0, TIN0 1, TIN1 2. -/
def hubTdc (k : Nat) : Nat := 4096 + k

/-- A hub TDC counts an edge; with 65,536 entries its map is rebuilt as R63 states. DESIGN CHOICE: the new map serves from the next
edge on, the 520 cycles of the rebuild left out (log 156). -/
def ChanTdc.edge (t : ChanTdc) (code : Nat) : ChanTdc :=
  let u := t.addCode code
  if u.total < histFull then u
  else
    let m := rebuildCentres u.hist 512 0 []
    { u with
      hist := [], total := 0, active := some m, seed := false, resid := residOf (mapDiff2 m u.active), rebuilds := u.rebuilds + 1 }

/-- The stamp of an edge caught in the snapshot that ends a hub core cycle, in 1/512 of a cycle (R58, R74). -/
def ChanTdc.stamp (t : ChanTdc) (cycle code : Nat) : Nat := cycle * 512 + fineOf (centreOf t.active code)

/-- An XTAL-timebase source of a tally unit in use (R74). -/
def State.listens (s : State) (src u : Nat) : Bool :=
  match (s.tally u).setup with
  | some x => !x.diff && x.src == src
  | none => false

/-- Comparator edges reach the units whose source and slope they match (R75, R76), stamped by the pin's hub TDC, which counts an
edge once. DESIGN CHOICE: units set on one pin with different slopes each take the edges of their own slope, and each keeps its own
threshold, although the pin has one comparator (log 157). -/
def State.tinEdge (s : State) (pin : Fin 2) (falling : Bool) (cycle code : Nat) : State :=
  let takes := fun (u : Nat) => match (s.tally u).setup with
    | some x => !x.diff && x.src == 1 + pin.val && x.slope == falling
    | none => false
  let us := (List.range 8).filter takes
  let k := hubTdc (1 + pin.val)
  let st := (s.tdc k).stamp cycle code
  s.when (s.live && !us.isEmpty) (fun s =>
    us.foldl (fun s u => s.setTally u { s.tally u with stamps := (s.tally u).stamps ++ [st] }) (s.modTdc k (fun t => t.edge code)))

/-- A stamp relative to the gate opening is numbered by cycle or counted as a slip (R78). -/
def TallySums.add (z : TallySums) (pnom : Nat) (t : Int) : TallySums :=
  let keep := fun (n : Int) =>
    { z with
      n := z.n + 1, sn := z.sn + n, st := z.st + t, snn := z.snn + n * n, snt := z.snt + n * t, stt := z.stt + t * t
      prevT := t, prevN := n }
  if z.n = 0 then keep 0
  else
    let d := t - z.prevT
    let m := roundDiv d pnom
    if m = 0 ∨ (pnom : Int) < 4 * (d - m * pnom).natAbs then { z with slips := z.slips + 1 } else keep (z.prevN + m)

/-- A stamp reaches a unit: within the gate in progress it is taken, beyond a continuous gate it waits, otherwise it is dropped
(R77, R78). -/
def Tally.feed (t : Tally) (x : TallySetup) (stamp : Nat) : Tally :=
  if !t.opened || decide (stamp < t.openAt) then t
  else if stamp < t.openAt + x.length then { t with sums := t.sums.add x.pnom ((stamp - t.openAt : Nat) : Int) }
  else if x.cont then { t with stamps := t.stamps ++ [stamp] }
  else t

/-- TALLY_STAMP (R74, R78): a REFCLK edge comes as the core cycle of its snapshot and its raw code, and the hub TDC of REFCLK, which
counts it once for all units, stamps it; stamps of the other sources stand in the unit's queue. -/
def State.tallyStamp (s : State) (u : Fin 8) (stamp code : Nat) : State :=
  let t := s.tally u
  match t.setup with
  | none => s
  | some x =>
    if !s.live || x.diff then s
    else if x.src = 0 then
      let st := (s.tdc (hubTdc 0)).stamp stamp code
      (s.when (!(List.range u).any (s.listens 0)) (fun s => s.modTdc (hubTdc 0) (fun t => t.edge code))).setTally u (t.feed x st)
    else if t.stamps.contains stamp then s.setTally u ({ t with stamps := t.stamps.erase stamp }.feed x stamp)
    else s

/-- TALLY_GATE_OPEN (R77): a node-timebase gate opens at the first slice boundary after the set-up took effect, an XTAL-timebase gate
at the stamp given. -/
def State.tallyOpen (s : State) (u : Fin 8) (stamp : Nat) : State :=
  let t := s.tally u
  match t.setup with
  | none => s
  | some x =>
    if !s.live || x.diff || t.opened || (!x.xtal && decide (s.fullSlice ≤ t.readySl)) then s
    else s.setTally u { t with
      opened := true, closed := false, sums := TallySums.zero
      openAt := if x.xtal then stamp else (t.readySl + 1) * 4096 * 512, hold := !x.xtal && s.node.refLost }

/-- TALLY_GATE_CLOSE (R77): the gate's length has elapsed. -/
def State.tallyClose (s : State) (u : Fin 8) : State :=
  let t := s.tally u
  match t.setup with
  | none => s
  | some x =>
    if !s.live || x.diff || !t.opened || (!x.xtal && decide (s.coarse0 * 512 < t.openAt + x.length)) then s
    else s.setTally u { t with closed := true }

/-- A full slice has been released (R20, R77, R80). -/
def State.slicesOut (s : State) (n : Int) : Bool :=
  match s.ring.newest with
  | some k => decide (n ≤ k)
  | none => false

/-- The regression of a gate: DEV and RESID (R78, R79). -/
def TallySums.fit (z : TallySums) (pnom : Nat) : Int × Nat :=
  let sxx := z.n * z.snn - z.sn * z.sn
  let sxy := z.n * z.snt - z.sn * z.st
  let syy := z.n * z.stt - z.st * z.st
  let dev := if sxy ≤ 0 then 0 else roundDiv ((pnom * sxx - sxy) * 2 ^ 36) sxy.toNat
  let d := z.n * z.n * sxx
  let resid := if d ≤ 0 then 0 else openSqrt 5 (256 * (syy * sxx - sxy * sxy)).toNat d.toNat
  (clampInt (-(2 ^ 31 - 1)) (2 ^ 31 - 1) dev, min resid 0xFFFF)

/-- STAT of a gate: the lowest non-zero that applies (R79). -/
def tallyStat (z : TallySums) (hold : Bool) : Nat :=
  if z.n < 3 then 1 else if z.n + z.slips < 100 * z.slips then 2 else if hold then 3 else 0

/-- A tally result record (R79). -/
def tallyRecord (u src stat count : Nat) (dev : Int) (resid slips gseq : Nat) : Rec128 :=
  BitVec.ofNat 128 (6 * 2 ^ 124 + u % 8 * 2 ^ 121 + src % 8 * 2 ^ 118 + stat % 8 * 2 ^ 115 + count % 2 ^ 32 * 2 ^ 83 +
    unsigned 32 dev * 2 ^ 51 + resid % 2 ^ 16 * 2 ^ 35 + min slips 0xFFFF * 2 ^ 19 + gseq % 256 * 2 ^ 11)

/-- A record of kinds 0x5 to 0x7 enters the stream at the collector (R126). -/
def State.serviceRecord (s : State) (r : Rec128) : State :=
  { s with core := { s.core with service := s.core.service ++ [r] } }

/-- A unit's run is over: the set-up that waits takes effect at the gate's close, in a full slice (R77, R188). -/
def Tally.finish (t : Tally) (slice : Nat) : Tally :=
  match t.nextSetup with
  | some x => { t.idle with setup := some x, readySl := slice }
  | none => t.idle

/-- Stamps that have not reached the unit by the result and whose value lies in the gate are taken: membership is decided by the
value (R77). -/
def Tally.takeQueued (t : Tally) (x : TallySetup) : Tally :=
  t.stamps.foldl (fun y st => y.feed x st) { t with stamps := [] }

/-- A continuous gate follows without a gap, and takes the stamps that waited for it (R77). -/
def Tally.again (t : Tally) (x : TallySetup) (hold : Bool) : Tally :=
  let y := { t with openAt := t.openAt + x.length, closed := false, sums := TallySums.zero, hold := hold, stamps := [] }
  t.stamps.foldl (fun y st => y.feed x st) y

/-- REFCLK is declared lost (R70 to R72): a holdover interval begins on every FE die at a full coarse time, and the open gates of
the node timebase lie in it. -/
def State.loseRef (s : State) (at_ : Nat) : State :=
  if s.node.refLost && !s.node.refBack then s
  else
    let s : State := { s with node := { s.node with refLost := true, refBack := false, refSeen := false } }
    let s := s.allFes (fun _ f => { f with hold := some (f.hold.getD at_) })
    let s := (List.range 8).foldl (fun s u =>
      let t := s.tally u
      match t.setup with
      | some x => if t.opened && !t.closed && !x.xtal then s.setTally u { t with hold := true } else s
      | none => s) s
    s.post .reflost []

/-- The gate of unit 7 checks REFCLK for the time service (R71): its OTP default claims the unit for source 0. -/
def State.checksRef (s : State) (u : Nat) (x : TallySetup) : Bool :=
  decide (u = 7) && decide (x.src = 0) && decide (((s.holder resTally 7).map (·.user)).getD 0 = userTime)

/-- A deviation lies beyond a number of ppm (R71). -/
def beyond (ppm : Nat) (dev : Int) : Bool := decide (ppm * 2 ^ 36 < 1000000 * dev.natAbs)

/-- What a result of unit 7 on REFCLK says: within ±250 ppm it can return (R73); beyond it REFWIN is raised, and beyond ±1,000 ppm
REFCLK counts as lost, the switch coming two FE logic cycles after the tick of the result (R70 to R72). -/
def State.refWindow (s : State) (u : Nat) (x : TallySetup) (few : Bool) (dev : Int) (tick : BitVec 12) : State :=
  if !s.checksRef u x || few then s
  else if !beyond 250 dev then { s with node := { s.node with refSeen := true } }
  else
    let s := { s with node := { s.node with refSeen := false } }.post .refwin []
    if beyond 1000 dev then s.loseRef (s.coarse tick + 9) else s

/-- TALLY_RESULT (R77, R79), formed at a tick: the stamps of the gate are all taken by their value, and the WAITs that select the
result see it (R190). -/
def State.tallyResult (s : State) (u : Fin 8) (tick : BitVec 12) : State :=
  let t := s.tally u
  match t.setup with
  | none => s
  | some x =>
    if !s.live || x.diff || !t.closed ||
        (!x.xtal && !s.slicesOut (((t.openAt + x.length) / (512 * 4096) : Nat) : Int)) then s
    else
      let t := t.takeQueued x
      let z := t.sums
      let few := decide (z.n < 3)
      let f := if few then (0, 0) else z.fit x.pnom
      let r := tallyRecord u x.src (tallyStat z t.hold) z.n f.1 f.2 z.slips t.gseq.toNat
      let t := { t with result := some r, gseq := t.gseq + 1 }
      let t := if t.nextSetup.isNone ∧ x.cont then t.again x (!x.xtal && s.node.refLost) else t.finish ((t.openAt + x.length) / (512 * 4096))
      (((s.setTally u t).serviceRecord r).seeAll (some 13)).refWindow u x few f.1 tick

/-! ### Difference runs (R80 to R83) -/

/-- The internal event of a TOUT reaches the tally units (R74, R80, R350). -/
def State.tallyTout (s : State) (k : Nat) (coarse : Nat) : State :=
  (List.range 8).foldl (fun s u =>
    let t := s.tally u
    match t.setup with
    | some x =>
      if x.diff && x.evt == k && decide (t.pulses.length < x.k) then s.setTally u { t with pulses := t.pulses ++ [(coarse : Int) + x.dly] }
      else if !x.diff && x.src == 4 && x.evt == k then s.setTally u { t with stamps := t.stamps ++ [coarse * 512] }
      else s
    | none => s) s

/-- The skew entry of a channel in a table. -/
def skewOf (m : List Host.Cell) (ch : Nat) : Int := signed 32 (numAt m (4 * ch) 4)

/-- The skew entry of a channel in force. -/
def State.skew (s : State) (ch : Nat) : Int := skewOf (s.table idSkew) ch

/-- The skew table that the records of a full slice use (R80, R82). -/
def State.skewTableOf (s : State) (slice : Nat) : List Host.Cell :=
  ((s.core.oldSkews.find? (fun p => decide (slice < p.1))).map (·.2)).getD (s.table idSkew)

/-- Channel of a calibrated hit record (R129). -/
def chrChan (r : Rec128) : Nat := bitsAt r.toNat 112 12

/-- Released hits of a slice reach the units that take hits, with the skew entries that the slice uses (R74, R80). -/
def State.tallyHits (s : State) (seq : Nat) (rs : List Rec128) : State :=
  let skews := s.skewTableOf seq
  let hits := rs.filter (fun r => bitsAt r.toNat 124 4 == 1)
  (List.range 8).foldl (fun s u =>
    let t := s.tally u
    match t.setup with
    | some x =>
      if x.diff then
        let ok := hits.filter (fun r => bitsAt r.toNat 31 16 &&& (2 ^ flagPOISON + 2 ^ flagSHORT + 2 ^ flagORDER) == 0)
        s.setTally u { t with hits := t.hits ++ ok.map (fun r => (chrChan r, chrTime seq r, skewOf skews (chrChan r))) }
      else if x.src = 3 then
        let own := hits.filter (fun r => chrChan r == x.chan)
        s.setTally u { t with stamps := t.stamps ++ own.map (fun r => (chrTime seq r).toNat) }
      else s
    | none => s) s

/-- The first hit of a channel with a ToA in the window of a pulse: its ToA with the skew entry added back (R80). -/
def Tally.firstHit (t : Tally) (ch win : Nat) (e : Int) : Option Int :=
  let lo := (e - win) * 512
  let hi := (e + win) * 512
  let first := (t.hits.filter (fun h => h.1 == ch && decide (lo ≤ h.2.1) && decide (h.2.1 ≤ hi))).foldl (fun b h => match b with
    | none => some h.2
    | some y => if h.2.1 < y.1 then some h.2 else some y) (none : Option (Int × Int))
  first.map (fun p => p.1 + p.2)

/-- Pulses counted, sum and sum of squares of d for a channel. -/
def Tally.diffSums (t : Tally) (x : TallySetup) (refs : List (Int × Option Int)) (ch : Nat) : Nat × Int × Int :=
  refs.foldl (fun a p =>
    match p.2, t.firstHit ch x.win p.1 with
    | some r, some h => (a.1 + 1, a.2.1 + (h - r), a.2.2 + (h - r) * (h - r))
    | _, _ => a) (0, 0, 0)

/-- What a run gives a channel: STAT, MEAN and RMS in 1/16 fine tick, COUNT, new skew entry, residual in 1/256 ps. -/
structure DiffOut where
  stat  : Nat
  mean  : Int
  rms   : Nat
  count : Nat
  skew  : Int
  resid : Nat
  deriving DecidableEq, Repr

/-- The arithmetic of R81 saturates at ±(2^31 − 1). -/
def skewSat (x : Int) : Int := clampInt (-(2 ^ 31 - 1)) (2 ^ 31 - 1) x

/-- The stored mean of a channel for a reference (R81). -/
def Tally.stored (t : Tally) (ref ch : Nat) : Option Int :=
  if t.baseRef = some ref ∧ t.base.any (fun p => p.1 == ch) then some (Tbl.get 0 t.base ch) else none

/-- What the pulses counted for a channel give it, under a status and with its old entry: M_c, m_c, s_c and the residual; without a
pulse MEAN and RMS are 0 (R81, R83). -/
def measured (stat : Nat) (a : Nat × Int × Int) (old : Int) : DiffOut :=
  let m := a.1
  if m = 0 then ⟨stat, 0, 0, 0, old, 0⟩
  else
    let var : Int := m * a.2.2 - a.2.1 * a.2.1
    { stat := stat, mean := skewSat (openDiv 2 (16 * a.2.1) m), rms := min (openSqrt 3 (256 * var).toNat (m * m)) 0xFFFF
      count := m, skew := old, resid := openSqrt 4 (256 * var * 3125 ^ 2).toNat (128 ^ 2 * m ^ 3) }

/-- The new entry under TARGET 0 and 1, each step saturating (R81). -/
def absoluteSkew (mean : Int) : Int := skewSat (skewSat (mean + 8) / 16)
def trackedSkew (old mean p : Int) : Int := skewSat (old + skewSat (skewSat (mean - p) + 8) / 16)

/-- The result of one channel (R81, R83). DESIGN CHOICE: where NOREF and NOBASE both apply to every channel, NOREF is given, and
either goes before FEW and REF (log 114). -/
def State.diffOut (s : State) (t : Tally) (x : TallySetup) (refs : List (Int × Option Int)) (ch : Nat) : DiffOut :=
  let old := s.skew ch
  let matched := (refs.filter (fun p => p.2.isSome)).length
  let a := t.diffSums x refs ch
  if 2 * matched < x.k then measured 2 a old
  else if x.target = 1 ∧ t.baseRef ≠ some x.chan then measured 5 a old
  else if ch = x.chan then ⟨3, 0, 0, matched, if x.target = 0 then 0 else old, 0⟩
  else if 2 * a.1 < x.k then ⟨1, 0, 0, a.1, old, 0⟩
  else
    let out := measured 0 a old
    if x.target = 0 then { out with skew := absoluteSkew out.mean }
    else if x.target = 2 then { out with stat := 4 }
    else
      match t.stored x.chan ch with
      | some p => { out with skew := trackedSkew old out.mean p }
      | none => { out with stat := 5 }

/-- A difference record (R83). -/
def diffRecord (ch u : Nat) (d : DiffOut) : Rec128 :=
  BitVec.ofNat 128 (5 * 2 ^ 124 + ch % 4096 * 2 ^ 112 + u % 8 * 2 ^ 109 + d.stat % 8 * 2 ^ 106 + unsigned 32 d.mean * 2 ^ 74 +
    d.rms % 2 ^ 16 * 2 ^ 58 + min d.count 0xFFFF * 2 ^ 42 + unsigned 32 d.skew * 2 ^ 10)

/-- The means that a RECORD run stores (R81). -/
def storeMeans (outs : List DiffOut) : Tbl Int :=
  outs.zipIdx.foldl (fun (b : Tbl Int) (p : DiffOut × Nat) => if p.1.stat = 4 then Tbl.put p.2 p.1.mean b else b) []

/-- The worst residual of a run, with its channel. -/
def worstResid (outs : List DiffOut) : Nat × Nat :=
  outs.zipIdx.foldl (fun (b : Nat × Nat) (p : DiffOut × Nat) => if b.2 < p.1.resid then (p.2, p.1.resid) else b) (0, 0)

/-- DIFFERENCE_RESULT (R80 to R83, R190): after pulse K and the release of the slice that holds E_K + WIN. DESIGN CHOICE: a RECORD run
replaces the reference and the whole table of stored means, so that a channel it gives no mean, and every channel of a run that ends
NOREF, has none afterwards (log 158). -/
def State.differenceResult (s : State) (u : Fin 8) : State :=
  let t := s.tally u
  match t.setup with
  | none => s
  | some x =>
    if !s.live || !x.diff || decide (t.pulses.length < x.k) || !s.slicesOut ((t.pulses.getLastD 0 + x.win) / 4096) then s
    else
      let refs := t.pulses.map (fun e => (e, t.firstHit x.chan x.win e))
      let outs := (List.range 4096).map (s.diffOut t x refs)
      let s := outs.zipIdx.foldl (fun s p => s.serviceRecord (diffRecord p.2 u p.1)) s
      let t := if x.target = 2 then { t with baseRef := some x.chan, base := storeMeans outs } else t
      let t := { t with resid := outs.zipIdx.foldl (fun (b : Tbl Nat) (p : DiffOut × Nat) => if p.1.stat = 0 ∨ p.1.stat = 4 then Tbl.set 0 b p.2 p.1.resid else b) t.resid }
      let w := worstResid outs
      let s := ((s.setTally u (t.finish s.fullSlice)).post .calq [(w.1, 12), (w.2, 16)]).seeAll (some 14)
      if x.target ≤ 1 ∧ s.loaded then s.queueTable idSkew 0 (outs.flatMap (fun o => leBytes 4 (unsigned 32 o.skew))) none else s

/-! ### Meanings -/

def execTinEdge (pin : Fin 2) (falling : Bool) (cycle : Nat) (code : Fin 513) (s : State) : Host.Outcome State Fault Refusal :=
  .next (s.tinEdge pin falling cycle code)

def execTallyStamp (unit : Fin 8) (stamp : Nat) (code : Fin 513) (s : State) : Host.Outcome State Fault Refusal :=
  .next (s.tallyStamp unit stamp code)

def execTallyGateOpen (unit : Fin 8) (stamp : Nat) (s : State) : Host.Outcome State Fault Refusal := .next (s.tallyOpen unit stamp)

def execTallyGateClose (unit : Fin 8) (s : State) : Host.Outcome State Fault Refusal := .next (s.tallyClose unit)

def execTallyResult (unit : Fin 8) (tick : BitVec 12) (s : State) : Host.Outcome State Fault Refusal :=
  .next (s.tallyResult unit tick)

def execDifferenceResult (unit : Fin 8) (s : State) : Host.Outcome State Fault Refusal := .next (s.differenceResult unit)

end Sys2Proof.Machine
end

