-- ==== Sys2Proof/Machine/TimeService.lean ====
section
/-!
DEFINITION. The time service: TIME messages and exchanges, the choice of the master, the servo, and the TOUT generators (R337 to
R352, R470).
-/

namespace Sys2Proof.Machine

/-- Figures of TIME (R352): row, quantity, index. -/
def figTime (row q : Nat) (idx : Nat := whole) : Fig := ⟨0x08, row, q, 0, idx⟩

/-! ### Timestamps (R339) -/

/-- Fixed egress and ingress delays of a rate code, in ps (R339). -/
def egressPs (rate : Nat) : Int := if rate = 0 then 58300 else if rate = 1 then 30450 else 32800
def ingressPs (rate : Nat) : Int := if rate = 0 then 71050 else if rate = 1 then 37200 else 41650

/-- Trims of a port, in ps (R337). -/
def State.etrim (s : State) (p : Nat) : Int := signed 16 (bitsAt s.time.w1.toNat (16 * p) 16)
def State.itrim (s : State) (p : Nat) : Int := signed 16 (bitsAt s.time.w2.toNat (16 * p) 16)

/-- A MAC stamp referred to the ball at egress, in units of 2^-16 ns. -/
def refEgress (rate : Nat) (trim mac : Int) : Int := mac + openDiv 0 ((egressPs rate + trim) * 65536) 1000

/-- A MAC stamp referred to the ball at ingress: start block j of its codeword, lane skew in ps; 66 bits take
88/75 ns × 2^(2 − code). -/
def refIngress (rate : Nat) (trim mac : Int) (j : Nat) (skew : Int) : Int :=
  mac - openDiv 0 (((ingressPs rate + skew + trim) * 75 + ((76 - j) * 88000 * 2 ^ (2 - rate) : Nat)) * 65536) 75000

/-! ### The exchange (R338, R341, R342) -/

/-- The active copy of a TIME port is in UP and not idle. -/
def State.timeOpen (s : State) (p : Nat) : Bool :=
  let c := (s.port p).copy s.red.active
  s.portTime p && c.st == .up && !c.idle

/-- The node is master on a port (R344). -/
def State.masterOn (s : State) (p : Nat) : Bool := s.time.win.isSome && s.time.slave != some p

/-- Rate code of a copy. -/
def State.rateOf (s : State) (h : Hub) (p : Nat) : Nat := ((s.port p).copy h).rate

/-- Units of 2^-16 ns in a second. -/
def subPerSec : Nat := 1000000000 * 65536

/-- The 32 bytes of a TIME frame's payload (R338): message, SEQID and sender, the timestamp in units of 2^-16 ns, the tuple. -/
def timePayload (msg : Nat) (seqid node : BitVec 16) (ts : Int) (tuple : Nat) : List Byte :=
  let t := (ts % (2 ^ 48 * subPerSec : Nat)).toNat
  leBytes 8 (msg * 2 ^ 60 + 2 ^ 56 + seqid.toNat * 2 ^ 40 + node.toNat * 2 ^ 24) ++ leBytes 8 (t / subPerSec) ++
    leBytes 8 (t % 65536 * 2 ^ 32 + t % subPerSec / 65536) ++ leBytes 8 (tuple * 2 ^ 32)

/-- Fields of a TIME frame's payload (R338). -/
def tfMsg (b : List Byte) : Nat := bitsAt (leAt b 0 8) 60 4
def tfVer (b : List Byte) : Nat := bitsAt (leAt b 0 8) 56 4
def tfSeq (b : List Byte) : BitVec 16 := BitVec.ofNat 16 (bitsAt (leAt b 0 8) 40 16)
def tfTime (b : List Byte) : Int :=
  (bitsAt (leAt b 8 8) 0 48 * subPerSec + bitsAt (leAt b 16 8) 0 32 * 65536 + bitsAt (leAt b 16 8) 32 16 : Nat)
def tfPrio (b : List Byte) : Nat := bitsAt (leAt b 24 8) 56 8
def tfGmid (b : List Byte) : Nat := bitsAt (leAt b 24 8) 40 16
def tfSteps (b : List Byte) : Nat := bitsAt (leAt b 24 8) 32 8

/-- The node time of a MAC stamp, in units of 2^-16 ns: interpolated in its REFCLK period (R339). -/
def State.macTime (s : State) (x : Stamp) : Int :=
  let t := s.nodeTime (8 * x.period.toNat)
  openDiv 0 ((t.1 * nsPerSec + t.2) * 256 + s.time.incr * x.frac.toNat : Nat) (2 ^ 24)

/-- A TIME frame departs. -/
def State.sendTime (s : State) (p msg : Nat) (seqid : BitVec 16) (ts : Int) (tuple : Nat) : State :=
  s.emit (.time p (timePayload msg seqid s.node.nodeId ts tuple))

/-- SYNC_INTERVAL (R341): a SYNC on each TIME port on which the node is master, with the egress time of its MAC stamp. -/
def State.syncInterval (s : State) (macs : List Stamp) : State :=
  s.when s.lanesOn (fun s => (List.range 4).foldl (fun s p =>
    if s.timeOpen p && s.masterOn p then
      let x := s.port p
      (s.setPort p { x with syncId := x.syncId + 1 }).sendTime p 1 x.syncId
        (refEgress (s.rateOf s.red.active p) (s.etrim p) (s.macTime (macs.getD p ⟨0, 0⟩))) 0
    else s) s)

/-- The winning tuple as ANNOUNCE carries it (R338, R344). -/
def tupleOf (w : Nat × Nat × Nat) : Nat := w.1 * 2 ^ 24 + w.2.1 * 2 ^ 8 + w.2.2

/-- ANNOUNCE_INTERVAL (R341, R344): candidates age, and every TIME port in UP sends the winning tuple. -/
def State.announceInterval (s : State) : State :=
  s.when s.lanesOn (fun s => (List.range 4).foldl (fun s p =>
    let x := s.port p
    let s := s.setPort p { x with cand := x.cand.map (fun c => { c with age := c.age + 1 }) }
    match s.time.win with
    | some w => if s.timeOpen p then s.sendTime p 4 0 0 (tupleOf w) else s
    | none => s) s)

/-- A received TIME frame of a message is taken: a good frame with 32 bytes, on a port with TIME = 1, of VER 1 and that MSG; otherwise it
is discarded and counted (R314, R338). -/
def State.timeFrame (s : State) (h : Hub) (p : Fin 4) (f : PortFrame) (msg : Nat) (g : State → State) : State :=
  if !s.frameHere h p then s
  else
    let s := s.bump (figFoda 5 8 p)
    if !frameGood f 3 || frameNdata f != 4 then s.bump (figFoda 5 10 p)
    else if !s.portTime p then s.bump (figTime 5 0 p)
    else if tfVer f.payload ≠ 1 then s.bump (figTime 5 1 p)
    else if tfMsg f.payload ≠ msg then s.bump (figTime 5 2 p)
    else g s

/-- The open exchange of a port is abandoned and counted (R341). -/
def State.abandonExch (s : State) (p : Nat) : State :=
  let x := s.port p
  if x.exch.isSome then (s.setPort p { x with exch := none }).bump (figTime 4 2 p) else s

/-- SYNC (R341): the slave stamps it and answers with a DREQ. -/
def State.syncRow (s : State) (h : Hub) (p : Fin 4) (f : PortFrame) (mac2 : Stamp) (j : Nat) (skew : Int) (mac3 : Stamp) : State :=
  s.timeFrame h p f 1 (fun s =>
    if s.time.slave ≠ some p.val then s
    else
      let s := s.abandonExch p
      let t2 := refIngress (s.rateOf h p) (s.itrim p) (s.macTime mac2) j skew
      let t3 := refEgress (s.rateOf s.red.active p) (s.etrim p) (s.macTime mac3)
      if s.timeOpen p then
        (s.setPort p { s.port p with exch := some ⟨tfSeq f.payload, tfTime f.payload, t2, t3, 0⟩ }).sendTime p 2 (tfSeq f.payload) t3 0
      else s)

/-- DREQ (R341): the master stamps it and returns a DRESP. -/
def State.dreqRow (s : State) (h : Hub) (p : Fin 4) (f : PortFrame) (mac4 : Stamp) (j : Nat) (skew : Int) : State :=
  s.timeFrame h p f 2 (fun s =>
    if s.masterOn p && s.timeOpen p then
      s.sendTime p 3 (tfSeq f.payload) (refIngress (s.rateOf h p) (s.itrim p) (s.macTime mac4) j skew) 0
    else s)

/-- Offset and delay of a completed exchange, in units of 2^-16 ns (R342). -/
def Exchange.offset (e : Exchange) : Int := openDiv 1 ((e.t2 - e.t1) - (e.t4 - e.t3)) 2
def Exchange.delay (e : Exchange) : Int := openDiv 1 ((e.t2 - e.t1) + (e.t4 - e.t3)) 2

/-- A port keeps its last 16 exchanges (R342). -/
def lastSixteen (l : List Exchange) (e : Exchange) : List Exchange := (l ++ [e]).drop (l.length + 1 - 16)

/-- DRESP (R341, R342): the exchange completes, or is abandoned on another SEQID. -/
def State.drespRow (s : State) (h : Hub) (p : Fin 4) (f : PortFrame) : State :=
  s.timeFrame h p f 3 (fun s =>
    let x := s.port p
    match x.exch with
    | none => s
    | some e =>
      if e.seqid ≠ tfSeq f.payload then s.abandonExch p
      else
        let e := { e with t4 := tfTime f.payload }
        let s := (s.setPort p { x with exch := none, last := lastSixteen x.last e }).bump (figTime 4 1 p)
        if s.servoOn ∧ s.time.slave = some p.val then
          { s with time := { s.time with offsets := s.time.offsets ++ [e.offset] } }
        else s)

/-- ANNOUNCE (R344): the last one received on a port is its candidate. -/
def State.announceRow (s : State) (h : Hub) (p : Fin 4) (f : PortFrame) : State :=
  s.timeFrame h p f 4 (fun s => s.modPort p (fun x =>
    { x with cand := some { prio := tfPrio f.payload, gmid := tfGmid f.payload, steps := tfSteps f.payload, age := 0 } }))

/-- EXCHANGE_TIMEOUT (R341). -/
def State.exchangeTimeout (s : State) (p : Fin 4) : State := s.when s.live (fun s => s.abandonExch p)

/-! ### Choosing the master (R344, R345) -/

/-- Own PRIO. -/
def State.ownPrio (s : State) : Nat := bitsAt s.time.w0.toNat 56 8

/-- The candidate of a port as it enters the set, with STEPS + 1 (R344). -/
def State.portCand (s : State) (p : Nat) : Option (Nat × Nat × Nat) :=
  match (s.port p).cand with
  | none => none
  | some c =>
    if s.portTime p && s.portInUp p && decide (c.age < 4) && c.prio != 255 && c.steps != 255 && c.gmid != s.node.nodeId.toNat then
      some (c.prio, c.gmid, c.steps + 1)
    else none

/-- One tuple is lower than another (R344). -/
def tupleLt (a b : Nat × Nat × Nat) : Bool :=
  decide (a.1 < b.1) || (a.1 == b.1 && (decide (a.2.1 < b.2.1) || (a.2.1 == b.2.1 && decide (a.2.2 < b.2.2))))

/-- The winner: its tuple, and its port unless it is the node's own (R344). -/
def State.winner (s : State) : Option ((Nat × Nat × Nat) × Option Nat) :=
  let own := if s.ownPrio = 255 then none else some ((s.ownPrio, s.node.nodeId.toNat, 0), none)
  (List.range 4).foldl (fun b p =>
    match s.portCand p, b with
    | none, b => b
    | some c, none => some (c, some p)
    | some c, some w => if tupleLt c w.1 then some (c, some p) else some w) own

/-- The choice of the master at a step boundary (R344, R345). -/
def State.chooseMaster (s : State) : State :=
  let w := s.winner
  let slave := w.bind (·.2)
  let old := s.time.slave
  let changed := slave ≠ old ∨ (slave.isSome ∧ (w.map (·.1.2.1)) ≠ s.time.win.map (·.2.1))
  let s : State := { s with time := { s.time with win := w.map (·.1), own := w.isSome && slave.isNone, slave := slave } }
  if changed then
    let s := match old with
      | some p => s.modPort p (fun x => { x with exch := none })
      | none => s
    ({ s with time := { s.time with servoF := 0, servoAcc := 0, offsets := [] } }).post .timemaster [(slave.getD 4, 3)]
  else s

/-! ### The servo (R470) -/

/-- Insert into a sorted list. -/
def insertInt (x : Int) : List Int → List Int
  | [] => [x]
  | y :: l => if x ≤ y then x :: y :: l else y :: insertInt x l

/-- Median; of an even number the mean of the two in the middle, rounded down. -/
def median (l : List Int) : Int :=
  let s := l.foldl (fun a x => insertInt x a) []
  let n := s.length
  if n % 2 = 1 then s.getD (n / 2) 0 else (s.getD (n / 2 - 1) 0 + s.getD (n / 2) 0) / 2

/-- Units of the rate correction f: 1/(2^52 × 10^6). -/
def servoUnit : Nat := 2 ^ 52 * 1000000

/-- The law of R470 on the offsets of the epoch that ended; its writes wait for the next boundary. -/
def State.servoUpdate (s : State) : State :=
  let t := s.time
  if !s.servoOn || !s.hay.up || t.offsets.isEmpty then { s with time := { t with offsets := [] } }
  else
    let o := median t.offsets
    if 65536000 < o.natAbs then
      { s with time := { t with offsets := [], servoAcc := 0, stepDue := some (t.stepDue.getD 0 - o) } }
    else
      let acc := t.servoAcc + o
      let f := clampInt (-(999 * 2 ^ 52)) (999 * 2 ^ 52) (t.servoF - (16 * o + acc) * 163840000)
      { s with time := { t with
          offsets := [], servoAcc := acc, servoF := f
          incrDue := some (26843545600 + roundDiv (26843545600 * f) servoUnit).toNat } }

/-! ### TOUT generators (R346 to R351) -/

/-- Node time at a tick of the slice in progress, in units of 2^-32 ns from 0 seconds. -/
def State.timeAt (s : State) (tick : Nat) : Nat := let t := s.nodeTime tick; t.1 * nsPerSec + t.2

/-- Node time of target n, in units of 2^-32 ns (R347). -/
def ToutGen.target (g : ToutGen) (n : Nat) : Nat := (g.start + n * g.period).toNat * 65536

/-- Number of targets of the schedule; none is unending. -/
def ToutGen.limit (g : ToutGen) : Option Nat :=
  if g.period = 0 then some 1 else if g.count = 0 then none else some g.count

/-- Index `next` names a target of the schedule. -/
def ToutGen.hasNext (g : ToutGen) : Bool :=
  g.en && (match g.limit with
    | some n => decide (g.next < n)
    | none => true)

/-- Targets of the schedule that lie before a node time. -/
def ToutGen.passed (g : ToutGen) (now : Nat) : Nat :=
  let s := g.start.toNat * 65536
  let n := if now ≤ s then 0 else if g.period = 0 then 1 else (now - s + g.period * 65536 - 1) / (g.period * 65536)
  match g.limit with
  | some m => min n m
  | none => n

/-- The internal events and balls run: outside fallow, frost and TRIPPED (R351). -/
def State.toutOn (s : State) : Bool := s.live && !deepState s.node.pstate

/-- Level of the ball for an active or inactive output (R346). -/
def ToutGen.ball (g : ToutGen) (active : Bool) : Bool := active != g.pol

/-- The output turns active or inactive, and drives its ball (R346, R348). -/
def State.driveTout (s : State) (k : Nat) (active : Bool) : State :=
  let g := s.gen k
  if g.level = active then s
  else
    let s := s.setGen k { g with level := active }
    if g.pin && s.red.drive.isSome then s.answer (.tout k (g.ball active)) else s

/-- The internal event of a TOUT reaches its consumers (R52, R64, R350). DEDUCED: the exclusion takes in the event's own tick and the
tick EXCL × 16 later (log 159). -/
def State.toutEvent (s : State) (k at_ : Nat) : State :=
  let s := s.allFes (fun _ f => { f.injectAt (at_ + 128) with exclTo := at_ + 16 * f.excl + 1 })
  ((s.tallyTout k at_).loopTout k).raise (2 + k)

/-- A pulse begins at a full coarse time (R348, R350, R351): omitted and counted while no hub drives the balls. -/
def State.firePulse (s : State) (k at_ : Nat) : State :=
  let g := s.gen k
  let gap := s.red.drive.isNone
  let s := s.setGen k { g with next := g.next + 1, made := if gap then g.made else g.made + 1 }
  let s :=
    if gap then (s.bump (figTime 6 4 k)).post .toutgap []
    else (s.setGen k { s.gen k with trail := some (at_ + g.width) }).driveTout k true
  if g.evt then s.toutEvent k at_ else s

/-- Targets are skipped and counted (R349, R351). -/
def State.skipTo (s : State) (k n : Nat) : State :=
  let g := s.gen k
  if n ≤ g.next then s
  else ((s.setGen k { g with next := n }).bump (figTime 6 3 k) (n - g.next)).post .toutlate []

/-- TOUT_PULSE (R348): the target's coarse tick within its REFCLK period. -/
def State.toutPulse (s : State) (k : Fin 4) (tick : BitVec 12) : State :=
  let g := s.gen k
  let t0 := s.timeAt tick.toNat
  let i := tick.toNat % 8
  if !s.toutOn || !g.hasNext || decide (t0 * 8 + (i + 1) * s.time.incr ≤ g.target g.next * 8) then s
  else s.firePulse k (s.coarse tick)

/-- The pulse in progress ends. -/
def State.endPulse (s : State) (k : Nat) : State :=
  let s := s.driveTout k false
  s.setGen k { s.gen k with trail := none }

/-- TOUT_PULSE_END (R348). -/
def State.toutPulseEnd (s : State) (k : Fin 4) (tick : BitVec 12) : State :=
  match (s.gen k).trail with
  | some t => if s.toutOn ∧ t ≤ s.coarse tick then s.endPulse k else s
  | none => s

/-- The schedule of a block (R346). -/
def ToutGen.ofBlock (g : ToutGen) (b : Nat) : ToutGen :=
  { g with
    en := true
    start := ((bitsAt b 0 48 * 1000000000 + bitsAt b 64 32) * 65536 + bitsAt b 96 16 : Nat)
    period := bitsAt b 128 40 * 65536 + bitsAt b 168 16, width := bitsAt b 192 16, pin := bitAt b 208, pol := bitAt b 209
    evt := bitAt b 210, count := bitsAt b 224 32, next := 0, made := 0, wait := none }

/-- A block takes effect at a slice boundary (R346, R347). -/
def State.applyTout (s : State) (k : Nat) : State :=
  let g := s.gen k
  match g.wait with
  | none => s
  | some w =>
    if !bitAt w.toNat 211 then
      let s := s.endPulse k
      s.setGen k { s.gen k with en := false, wait := none }
    else
      let g' := g.ofBlock w.toNat
      let n := g'.passed (s.timeAt 0)
      let s := s.setGen k { g' with next := n }
      let s := if g.pol ≠ g'.pol ∧ g'.pin = true ∧ s.red.drive.isSome then s.answer (.tout k (g'.ball g.level)) else s
      if g'.period = 0 ∧ n = 1 then (s.bump (figTime 6 3 k)).post .toutlate [] else s

/-- The forward step of an epoch boundary passed targets: the last one makes a pulse at the boundary (R349). -/
def State.toutStep (s : State) (k : Nat) : State :=
  let g := s.gen k
  if !s.toutOn || !g.en then s
  else
    let n := g.passed (s.timeAt 0)
    if n ≤ g.next then s else (s.skipTo k (n - 1)).firePulse k s.coarse0

/-- Fallow, frost and TRIPPED end the pulses; the balls hold their inactive level (R351). -/
def State.toutHold (s : State) : State := (List.range 4).foldl (fun s k => s.endPulse k) s

/-- On the return, targets that passed are skipped and counted (R351). -/
def State.toutReturn (s : State) : State :=
  (List.range 4).foldl (fun s k => let g := s.gen k; if g.en then s.skipTo k (g.passed (s.timeAt 0)) else s) s

/-! ### Meanings -/

def execSyncInterval (macs : List Stamp) (s : State) : Host.Outcome State Fault Refusal := .next (s.syncInterval macs)

def execAnnounceInterval (s : State) : Host.Outcome State Fault Refusal := .next s.announceInterval

def execSync (h : Hub) (port : Fin 4) (frame : PortFrame) (mac2 : Stamp) (j : Fin 77) (skew : Int) (mac3 : Stamp) (s : State) :
    Host.Outcome State Fault Refusal :=
  .next (s.syncRow h port frame mac2 j skew mac3)

def execDreq (h : Hub) (port : Fin 4) (frame : PortFrame) (mac4 : Stamp) (j : Fin 77) (skew : Int) (s : State) :
    Host.Outcome State Fault Refusal :=
  .next (s.dreqRow h port frame mac4 j skew)

def execDresp (h : Hub) (port : Fin 4) (frame : PortFrame) (s : State) : Host.Outcome State Fault Refusal :=
  .next (s.drespRow h port frame)

def execAnnounce (h : Hub) (port : Fin 4) (frame : PortFrame) (s : State) : Host.Outcome State Fault Refusal :=
  .next (s.announceRow h port frame)

def execExchangeTimeout (port : Fin 4) (s : State) : Host.Outcome State Fault Refusal := .next (s.exchangeTimeout port)

def execToutPulse (k : Fin 4) (tick : BitVec 12) (s : State) : Host.Outcome State Fault Refusal := .next (s.toutPulse k tick)

def execToutPulseEnd (k : Fin 4) (tick : BitVec 12) (s : State) : Host.Outcome State Fault Refusal :=
  .next (s.toutPulseEnd k tick)

end Sys2Proof.Machine
end

