-- ==== Sys2Proof/Machine/Hayward.lean ====
section
/-!
DEFINITION. Hayward: events, the event ring and the persistent log, flash and firmware, OTP, LOG, UPDATE and OTP commands (R450 to
R469).
-/

namespace Sys2Proof.Machine

/-- Hayward runs: it is up, and not halted in fallow or frost (R447). -/
def State.hayRuns (s : State) : Bool := s.live && s.hay.up && !deepState s.node.pstate

def State.modHay (s : State) (g : Hayward → Hayward) : State := { s with hay := g s.hay }

/-! ### Events (R453 to R455) -/

/-- The 28 bytes of an entry that its CRC covers (R453). -/
def EvEntry.body (e : EvEntry) : List Byte :=
  leBytes 4 e.seq.toNat ++ leBytes 4 (e.code + e.sev * 2 ^ 16 + e.origin * 2 ^ 19 + b2n e.cont * 2 ^ 21) ++
    leBytes 8 (e.sec % 2 ^ 48 + e.sub % 2 ^ 16 * 2 ^ 48) ++ leBytes 4 e.ns ++ leBytes 8 e.arg.toNat

/-- A 32-byte entry (R453). -/
def EvEntry.bytes (e : EvEntry) : List Byte := e.body ++ leBytes 4 (crc32c e.body)

/-- Entries of an event word from a sequence number: the first and its continuations (R453, R454). -/
def EvWord.entries (w : EvWord) (seq : BitVec 32) (cont : Bool) : List (BitVec 64) → List EvEntry
  | [] => []
  | a :: l =>
    { seq := seq, code := w.code, sev := w.sev, origin := w.origin, cont := cont, sec := w.sec, ns := w.v / 2 ^ 32
      sub := w.v / 2 ^ 16 % 2 ^ 16, arg := a } :: w.entries (seq + 1) true l

/-- Sum of the entries suppressed. -/
def suppTotal (t : Tbl Nat) : Nat := t.foldl (fun n p => n + p.2) 0

/-- The code suppressed most often, the lowest on a tie (R458). -/
def suppTop (t : Tbl Nat) : Nat :=
  (t.foldl (fun (b : Nat × Nat) (p : Nat × Nat) => if b.2 < p.2 then p else b) (0, 0)).1

/-- Entries of a code go to the persistent log: at or above LOGSEV, within the rate limit (R458). -/
def State.toLog (s : State) (code sev : Nat) (es : List EvEntry) : State :=
  if sev < s.node.logSev then s
  else
    let n := Tbl.get 0 s.hay.logged code + es.length
    if code = Ev.logsupp.code then s.modHay (fun y => { y with batch := y.batch ++ es })
    else if 64 < n then
      s.modHay (fun y => { y with supp := Tbl.set 0 y.supp code (Tbl.get 0 y.supp code + es.length) })
    else s.modHay (fun y => { y with batch := y.batch ++ es, logged := Tbl.set 0 y.logged code n })

/-- Entries of the event ring (R457). -/
def ringCap : Nat := 2048

/-- Entries enter the event ring; those overwritten unread are counted, and vector 0 fires when it was empty (R457, R486). -/
def State.toRing (s : State) (es : List EvEntry) : State :=
  let was := s.hay.unread
  let excess := was + es.length - ringCap
  let s := s.modHay (fun y =>
    let r := y.ring ++ es
    { y with ring := r.drop (r.length - ringCap), unread := min ringCap (was + es.length), evlost := min 0xFFFFFFFF (y.evlost + excess) })
  if was = 0 then s.cause 3 else s

/-- An event word gets its entries: into the ring when `ring`, and to the log. -/
def State.record (s : State) (w : EvWord) (ring : Bool) : State :=
  let es := w.entries s.hay.nextSeq false w.args
  let s := s.modHay (fun y => { y with nextSeq := y.nextSeq + BitVec.ofNat 32 es.length })
  let s := s.toLog w.code w.sev es
  if ring then s.toRing es else s

/-- An event that Hayward forms itself, at the node time of the step in progress. -/
def State.ownWord (s : State) (e : Ev) (items : List (Nat × Nat)) : EvWord :=
  let p := packItems items
  let t := s.nodeNow
  ⟨e.code, e.sev, 0, cutWords p.1 p.2, t.1, t.2⟩

/-- The entries suppressed in a second are summarised (R458). -/
def State.reportSupp (s : State) : State :=
  if s.hay.supp.isEmpty then s
  else
    let w := s.ownWord .logsupp [(min 0xFFFFFFFF (suppTotal s.hay.supp), 32), (suppTop s.hay.supp, 16)]
    (s.modHay (fun y => { y with supp := [] })).record w true

/-- The second of the events changes: the counts of the rate limit restart (R458). -/
def State.turnSecond (s : State) (sec : Nat) : State :=
  if s.hay.curSec = sec then s else (s.modHay (fun y => { y with curSec := sec, logged := [] })).reportSupp

/-- EVENT (R453, R457, R458): the oldest event word enters the ring and the log. -/
def State.eventRow (s : State) : State :=
  if !s.hayRuns then s
  else
    match s.hay.fifo with
    | [] => s
    | w :: l => ((s.modHay (fun y => { y with fifo := l })).turnSecond w.sec).record w true

/-- An EVLOST event: to the log, not into the ring (R457). -/
def State.evLost (s : State) (n : Nat) (fifo : Bool) : List EvEntry × State :=
  let w := s.ownWord .evlost [(min 0xFFFFFFFF n, 32), (b2n fifo, 1)]
  let s := s.turnSecond w.sec
  (w.entries s.hay.nextSeq false w.args, s.record w false)

/-- Gleaner mail becomes PROGMAIL, one message at a step (R167, R455). -/
def State.relayMail (s : State) : State :=
  if !s.hayRuns then s
  else
    match s.core.mailbox with
    | [] => s
    | m :: l =>
      let s : State := { s with core := { s.core with mailbox := l } }
      s.postWord Ev.progmail.code Ev.progmail.sev 0
        [BitVec.ofNat 64 (m.gleaner % 128 + m.seq % 2 ^ 44 * 2 ^ 7 + b2n m.poison * 2 ^ 51), m.lo, m.hi]

/-! ### The persistent log (R458, R459) -/

/-- Hubs whose Hayward runs: the active, and a partner in lockstep. -/
def State.hayHubs (s : State) : List Hub := if s.red.lockstep then [s.red.active, s.red.active.other] else [s.red.active]

/-- Entries that the log keeps: all sectors but the erased one (R458). -/
def logCap : Nat := 524288 - 2048

/-- Entries are programmed; the oldest sector goes when the circle closes (R458). -/
def Store.program (x : Store) (es : List EvEntry) : Store :=
  let l := x.log ++ es
  { x with log := if logCap < l.length then l.drop 2048 else l }

/-- A page goes into the log of each hub named. -/
def State.programLog (s : State) (hs : List Hub) (es : List EvEntry) : State :=
  hs.foldl (fun s h => s.modHay (fun y => y.setStore h ((y.store h).program es))) s

/-- LOG_BATCH (R458): the oldest 8 waiting entries, or all of them after 1 s, begin to be programmed. -/
def State.logBatch (s : State) : State :=
  if !s.hayRuns || !s.hay.page.isEmpty then s
  else s.modHay (fun y => { y with page := y.batch.take 8, batch := y.batch.drop 8 })

/-- FLASH_DONE (R450): the page stands in both flashes. -/
def State.flashDone (s : State) : State :=
  if !s.live then s else (s.programLog s.hayHubs s.hay.page).modHay (fun y => { y with page := [] })

/-- A failed flash operation of a hub is counted (R459). -/
def State.flashFailed (s : State) (h : Hub) : State :=
  (s.modHay (fun y => match h with
    | .a => { y with failsA := y.failsA + 1 }
    | .b => { y with failsB := y.failsB + 1 })).post .flashfail [] (some h)

/-- FLASHFAIL (R459): the page is missing in that hub's flash, and the hub goes on. -/
def State.flashFail (s : State) (h : Hub) : State :=
  if !s.live then s
  else ((s.programLog (s.hayHubs.filter (fun x => x != h)) s.hay.page).modHay (fun y => { y with page := [] })).flashFailed h

/-- Waiting entries are written out before frost (R448, R458). -/
def State.flushLog (s : State) : State :=
  (s.programLog s.hayHubs (s.hay.page ++ s.hay.batch)).modHay (fun y => { y with page := [], batch := [] })

/-! ### Control records and images (R460 to R462) -/

/-- The control record in force: the valid one with the higher RSEQ (R460); none counts as slot A without a trial. -/
def Store.control (x : Store) : CtlRecord :=
  match x.rec0, x.rec1 with
  | some a, some b => if laterMod 32 b.rseq.toNat a.rseq.toNat then b else a
  | some a, none => a
  | none, some b => b
  | none, none => { rseq := 0, pref := false, trial := 0, verA := false, verB := false, versA := 0, versB := 0 }

/-- A new record goes to the copy that holds the older one (R460). -/
def Store.writeControl (x : Store) (r : CtlRecord) : Store :=
  let n := some { r with rseq := x.control.rseq + 1 }
  match x.rec0, x.rec1 with
  | some a, some b => if laterMod 32 b.rseq.toNat a.rseq.toNat then { x with rec0 := n } else { x with rec1 := n }
  | some _, none => { x with rec1 := n }
  | none, _ => { x with rec0 := n }

/-- A write of the control record that a trip cuts short: its copy is not valid (R460, R464). -/
def Store.tearControl (x : Store) : Store :=
  match x.rec0, x.rec1 with
  | some a, some b => if laterMod 32 b.rseq.toNat a.rseq.toNat then { x with rec0 := none } else { x with rec1 := none }
  | some _, none => { x with rec1 := none }
  | none, _ => { x with rec0 := none }

/-- Image of a slot: false A, true B. -/
def Store.slotImg (x : Store) (b : Bool) : List Byte := if b then x.slotB else x.slotA

def Store.setSlot (x : Store) (b : Bool) (img : List Byte) : Store := if b then { x with slotB := img } else { x with slotA := img }

def CtlRecord.verified (r : CtlRecord) (b : Bool) : Bool := if b then r.verB else r.verA

def CtlRecord.setVerified (r : CtlRecord) (b v : Bool) : CtlRecord := if b then { r with verB := v } else { r with verA := v }

def CtlRecord.setVersion (r : CtlRecord) (b : Bool) (v : BitVec 32) : CtlRecord :=
  if b then { r with versB := v } else { r with versA := v }

def imgArc (b : List Byte) : Nat := leAt b 6 1
def imgVersion (b : List Byte) : BitVec 32 := BitVec.ofNat 32 (leAt b 0x14 4)

/-- Number of thermometer bits burned from bit 0 upward without a gap (R462). -/
def Store.arcCount (x : Store) : Nat :=
  let w := (Tbl.get 0 x.rows 0x10).toNat + (Tbl.get 0 x.rows 0x11).toNat * 2 ^ 32
  ((List.range 64).takeWhile (fun i => bitAt w i)).length

/-- FWKEY, the hash of the firmware public key, in hash order (R465). -/
def Store.fwKey (x : Store) : List Byte := (List.range 12).flatMap (fun i => leBytes 4 (Tbl.get 0 x.rows i).toNat)

/-- The first check of R462 that an image fails. -/
def Store.imageCheck (x : Store) (b : List Byte) : Option Nat :=
  let len := leAt b 0xC 4
  let key := (b.drop 0x20).take 96
  if leAt b 0 4 ≠ 0x57465748 ∨ leAt b 4 2 ≠ 1 ∨ 1048576 < leAt b 8 4 ∨ leAt b 8 4 ≠ 0x110 + len ∨ 458752 < len ∨
      len ≤ leAt b 0x10 4 then some 1
  else if sha384 key ≠ x.fwKey then some 2
  else if ecdsaOk key (sha384 (b.take 0xB0)) ((b.drop 0xB0).take 96) = false then some 3
  else if sha384 ((b.drop 0x110).take len) ≠ (b.drop 0x80).take 48 then some 4
  else if 64 < imgArc b ∨ imgArc b < x.arcCount then some 5
  else none

/-- A slot of a flash is valid. -/
def Store.slotOk (x : Store) (b : Bool) : Bool := (x.imageCheck (x.slotImg b)).isNone

/-! ### Boot (R463) -/

/-- What the boot code chooses: the slot, its flash after, and whether it fell back; none without a valid image. -/
def Store.boot (x : Store) : Option (Bool × Store × Bool) :=
  let r := x.control
  let fall := if x.slotOk (!r.pref) then some (!r.pref, x.writeControl { r with pref := !r.pref, trial := 0 }, true) else none
  if r.trial = 2 then fall
  else if x.slotOk r.pref then some (r.pref, if r.trial = 1 then x.writeControl { r with trial := 2 } else x, false)
  else fall

/-- Hayward stops: its memory is lost and SEQ goes on from the log (R453, R451). -/
def State.hayDown (s : State) : State :=
  s.modHay (fun y => { y with
    up := false, ring := [], unread := 0, evlost := 0, batch := [], page := [], curSec := 0, logged := [], supp := []
    restart := false, staged := none
    nextSeq := match (y.store s.red.active).log.getLast? with
      | some e => e.seq + 1
      | none => 0 })

/-- The boot code of a hub runs (R463); without a valid image the hub is faulty (R433). -/
def State.bootHub (s : State) (h : Hub) : State :=
  match (s.hay.store h).boot with
  | none => s.modHubRed h (fun x => { x with dead := true })
  | some (slot, store, fell) =>
    let s := s.modHay (fun y => y.setStore h store)
    let s := if fell then (s.modHay (fun y => { y with fellBack := true })).post .fwfallback [] (some h) else s
    if h = s.red.active then s.modHay (fun y => { y with slot := slot, version := imgVersion (store.slotImg slot) }) else s

/-- The boot code runs in the hubs named; hub A's firmware runs in both, and different versions raise OTPDIFF (R463). -/
def State.bootCode (s : State) (hs : List Hub) : State :=
  let s := hs.foldl (fun s h => s.bootHub h) (s.modHay (fun y => { y with fellBack := false }))
  let ver := fun (h : Hub) => let x := s.hay.store h; imgVersion (x.slotImg x.control.pref)
  if hs.length = 2 ∧ (hs.all (fun h => !(s.hubRed h).dead)) = true ∧ ver .a ≠ ver .b then
    s.post .otpdiff [((ver .a).toNat, 32), ((ver .b).toNat, 32)]
  else s

/-- Every voted die temperature is at or below 85 °C (R407, R463, R468). -/
def State.coolEnough (s : State) : Bool :=
  dies.all (fun d => match s.thermal.voted d with
    | some q => decide (q ≤ 340)
    | none => false)

/-- Thermometer bits of a store up to a count (R463). -/
def Store.burnArc (x : Store) (n : Nat) : Store :=
  let m := (Tbl.get 0 x.rows 0x10).toNat + (Tbl.get 0 x.rows 0x11).toNat * 2 ^ 32 ||| (2 ^ n - 1)
  { x with rows := Tbl.set 0 (Tbl.set 0 x.rows 0x10 (BitVec.ofNat 32 m)) 0x11 (BitVec.ofNat 32 (m >>> 32)) }

/-- An image that has booted writes TRIAL = 0, then burns the thermometer up to its ARC (R463). -/
def State.imageUp (s : State) (h : Hub) : State :=
  let x := s.hay.store h
  let r := x.control
  let x := if r.trial = 0 then x else x.writeControl { r with trial := 0 }
  let arc := imgArc (x.slotImg r.pref)
  if x.arcCount < arc ∧ arc ≤ 64 ∧ s.coolEnough = true then (s.modHay (fun y => y.setStore h (x.burnArc arc))).post .arburn [] (some h)
  else s.modHay (fun y => y.setStore h x)

/-- The firmware is up in the hubs named: FWBOOT, the trip record of the last TRIPPED, and an ACTIVATE that waits completes
(R405, R463, R464). -/
def State.hayUp (s : State) (hs : List Hub) : State :=
  let s := hs.foldl (fun s h => s.imageUp h) (s.modHay (fun y => { y with up := true }))
  let s := s.post .fwboot []
  let s := match s.thermal.record with
    | some (d, m, ts) =>
      if s.thermal.recordNew then
        ({ s with thermal := { s.thermal with recordNew := false } }).post .trip
          ([(d, 4), (m.toNat, 4)] ++ ts.map (fun (q : Int) => (unsigned 12 q, 12)))
      else s
    | none => s
  match s.hay.activating with
  | none => s
  | some src =>
    let s := s.modHay (fun y => { y with activating := none })
    if s.hay.fellBack then s.complete src .fault 1 else s.complete src .ok

/-- FWWDOG (R451): Hayward restarts from the image it was running; a boot that has not finished begins again with the boot code. -/
def State.fwWdog (s : State) : State :=
  if !s.live || s.node.mode == .seed || deepState s.node.pstate then s
  else if s.hay.up then (s.post .fwwdog []).hayDown
  else ((s.post .fwwdog []).hayDown).bootCode s.hayHubs

/-- HAYWARD_UP (R448, R451): the restart is over. -/
def State.haywardUp (s : State) : State :=
  if !s.live || s.hay.up || s.node.mode == .seed || deepState s.node.pstate then s else s.hayUp s.hayHubs

/-- HAYWARD_POLL (R452): a value read by Hayward, with its node time. -/
def State.haywardPoll (s : State) (kind index : Nat) (value : Int) : State :=
  if !s.hayRuns then s
  else s.modHay (fun y => { y with values := Tbl.set (0, 0) y.values (kind * 4096 + index % 4096) (value, s.waitTime) })

/-! ### LOG (R457, R469) -/

/-- Write bytes to host memory for a command. -/
def State.toHost (s : State) (addr : Nat) (bs : List Byte) : State := if bs.isEmpty then s else s.emit (.write addr bs)

/-- RING (R457, R469): EVLOST first when entries were lost, then the unread entries that fit. -/
def State.ringRead (s : State) (src : Src) : State :=
  s.command src clLog 0 (fun w =>
    let room := 2 * cmdArg0 w
    let r := if 0 < s.hay.evlost ∧ 0 < room then
        let x := s.evLost s.hay.evlost false
        (x.1, x.2.modHay (fun y => { y with evlost := 0 }))
      else ([], s)
    let s := r.2
    let n := min s.hay.unread (room - r.1.length)
    let es := r.1 ++ (s.hay.ring.drop (s.hay.ring.length - s.hay.unread)).take n
    let s := s.modHay (fun y => { y with unread := y.unread - n })
    (s.toHost (cmdArg1 w) (es.flatMap EvEntry.bytes)).complete src .ok es.length)

/-- READLOG (R469): up to 128 entries from the first at or after SEQ. -/
def State.readLog (s : State) (src : Src) : State :=
  s.command src clLog 1 (fun w =>
    let l := (s.hay.store s.red.active).log
    let es := (l.dropWhile (fun e => !reachedMod 32 e.seq.toNat (cmdArg0 w))).take 128
    (s.toHost (cmdArg1 w) (es.flatMap EvEntry.bytes)).complete src .ok es.length)

/-- A SETWRITE of a kind. -/
def State.setwrite (s : State) (src : Src) (kind : Nat) (f : State → Status × State) : State :=
  s.command src clLog 2 (fun w =>
    if cmdArg0 w ≠ kind then s
    else
      let r := f s
      r.2.complete src r.1)

/-- The ranges of the time-service settings (R337). -/
def timeWordOk (w : Nat) : Bool := bitsAt w 0 47 == 0 && decide (bitsAt w 52 4 ≤ 10) && decide (bitsAt w 48 4 ≤ 10)

/-- Time-service settings (R337, R469). -/
def State.writeTimeWords (s : State) (b : List Byte) : Status × State :=
  if b.length ≠ 24 ∨ timeWordOk (leAt b 0 8) = false then (.illegal, s)
  else (.ok, { s with time := { s.time with w0 := blockWord b 0, w1 := blockWord b 8, w2 := blockWord b 16 } })

/-- Safety-loop words; test current only in STANDBY (R408, R469). -/
def State.writeLoopWords (s : State) (b : List Byte) : Status × State :=
  let x := leAt b 0 8
  let y := leAt b 8 8
  if b.length ≠ 16 ∨ loopWordOk x = false ∨ loopWordOk y = false then (.illegal, s)
  else if (bitsAt x 61 3 = 5 ∨ bitsAt y 61 3 = 5) ∧ s.node.mode ≠ .standby then (.notready, s)
  else (.ok, { s with loopA := { s.loopA with word := blockWord b 0 }, loopB := { s.loopB with word := blockWord b 8 } })

/-- The node word: NODEID and TRIPMODE (R469). -/
def State.writeNodeWord (s : State) (b : List Byte) : Status × State :=
  let x := leAt b 0 8
  if b.length ≠ 8 ∨ bitsAt x 17 47 ≠ 0 then (.illegal, s)
  else (.ok, { s with node := { s.node with nodeId := BitVec.ofNat 16 x, tripRt := some (bitAt x 16) } })

/-- The node word in force (R469). -/
def State.nodeWord (s : State) : Nat := s.node.nodeId.toNat + b2n (s.node.tripRt.getD s.node.tripOtp) * 2 ^ 16

/-- The settings block of a kind in force (R469). -/
def State.settingsBlock (s : State) (kind : Nat) : List Byte :=
  let w := fun (x : BitVec 64) => leBytes 8 x.toNat
  match kind with
  | 1 =>
    w s.mon.header ++ w s.mon.diode ++ (List.range 64).flatMap (fun i => w (Tbl.get 0 s.mon.regular i)) ++
      (List.range 8).flatMap (fun i => w (Tbl.get 0 s.mon.injected i))
  | 2 => (List.range 8).flatMap (fun n => let l := s.loop n; w l.w0 ++ w l.w1 ++ w l.w2 ++ w l.w3 ++ w l.w4)
  | 3 => w s.time.w0 ++ w s.time.w1 ++ w s.time.w2
  | 4 => w s.loopA.word ++ w s.loopB.word
  | _ => leBytes 8 s.nodeWord

/-- SETREAD (R469). -/
def State.setRead (s : State) (src : Src) : State :=
  s.command src clLog 3 (fun w => (s.toHost (cmdArg1 w) (s.settingsBlock (cmdArg0 w))).complete src .ok)

/-- MONRUN (R397, R469). -/
def State.monRun (s : State) (src : Src) : State := s.command src clLog 5 (fun _ => (s.raise 7).complete src .ok)

/-! ### UPDATE (R464) -/

/-- The failing hubs of a flash operation as DETAIL gives them. -/
def State.failHubs (s : State) (failed : BitVec 2) : List Hub := s.hayHubs.filter (fun h => failed.getLsbD h.idx)

def State.failDetail (s : State) (failed : BitVec 2) : Nat := (s.failHubs failed).foldl (fun n h => n + 2 ^ h.idx) 0

/-- A command with flash operations: each hub writes, a failing hub writes nothing usable and reports it. -/
def State.flashWrite (s : State) (failed : BitVec 2) (good bad : Store → Store) : State :=
  s.hayHubs.foldl (fun s h =>
    if failed.getLsbD h.idx then (s.modHay (fun y => y.setStore h (bad (y.store h)))).flashFailed h
    else s.modHay (fun y => y.setStore h (good (y.store h)))) s

/-- The slot that STAGE writes: the one not in use (R464). -/
def State.stagedSlot (s : State) : Bool := s.hay.staged.getD (!s.hay.slot)

/-- STAGE (R464). -/
def State.stageRow (s : State) (src : Src) (img : List Byte) (failed : BitVec 2) : State :=
  s.command src clUpdate 0 (fun w =>
    if img.length ≠ 4096 * cmdArg0 w then s
    else
      let slot := !s.hay.slot
      let good := fun (x : Store) =>
        (x.setSlot slot img).writeControl ((x.control.setVerified slot false).setVersion slot (imgVersion img))
      let bad := fun (x : Store) => (x.setSlot slot []).writeControl (x.control.setVerified slot false)
      let s := (s.flashWrite failed good bad).modHay (fun y => { y with staged := some slot })
      if s.failHubs failed = [] then s.complete src .ok else s.complete src .fault (s.failDetail failed))

/-- VERIFY (R464): the first failing check of the active hub's copy, else of the partner's. -/
def State.verifyRow (s : State) (src : Src) (failed : BitVec 2) : State :=
  s.command src clUpdate 1 (fun _ =>
    let slot := s.stagedSlot
    if s.failHubs failed ≠ [] then
      ((s.failHubs failed).foldl (fun s h => s.flashFailed h) s).complete src .fault (s.failDetail failed)
    else
      match s.hayHubs.findSome? (fun h => let x := s.hay.store h; x.imageCheck (x.slotImg slot)) with
      | some n => s.complete src .denied n
      | none =>
        let set := fun (x : Store) => x.writeControl (x.control.setVerified slot true)
        (s.flashWrite 0 set set).complete src .ok)

/-- COMMIT (R464). -/
def State.commitRow (s : State) (src : Src) (failed : BitVec 2) : State :=
  s.command src clUpdate 2 (fun _ =>
    let slot := s.stagedSlot
    if s.hayHubs.any (fun h => !(s.hay.store h).control.verified slot) then s.complete src .denied
    else
      let s := s.flashWrite failed (fun x => x.writeControl { x.control with pref := slot, trial := 1 }) (fun x => x)
      if s.failHubs failed = [] then (s.post .fwcommit []).complete src .ok else s.complete src .fault (s.failDetail failed))

/-- ACTIVATE (R464): Hayward restarts at the next step boundary; the command waits for TRIAL = 0. -/
def State.activateRow (s : State) (src : Src) : State :=
  s.command src clUpdate 3 (fun _ => s.modHay (fun y => { y with restart := true, activating := some src }))

/-- The restart of ACTIVATE at a step boundary (R464). -/
def State.restartHay (s : State) : State := if s.hay.restart then s.hayDown.bootCode s.hayHubs else s

/-! ### OTP (R465 to R468) -/

/-- Word n of generation g (R466). -/
def Store.otpWord (x : Store) (g n : Nat) : Nat :=
  (Tbl.get 0 x.rows (0x20 + 64 * g + 2 * n)).toNat + (Tbl.get 0 x.rows (0x21 + 64 * g + 2 * n)).toNat * 2 ^ 32

/-- Bytes of words 0 to 30. -/
def Store.genBytes (x : Store) (g : Nat) : List Byte := (List.range 31).flatMap (fun n => leBytes 8 (x.otpWord g n))

/-- A generation is committed (R466). -/
def Store.committed (x : Store) (g : Nat) : Bool :=
  x.otpWord g 31 / 2 ^ 32 == 0xA5C35A3C && x.otpWord g 31 % 2 ^ 32 == crc32c (x.genBytes g)

/-- A generation has a bit burned (R466). -/
def Store.touched (x : Store) (g : Nat) : Bool :=
  (List.range 64).any (fun i => Tbl.get 0 x.rows (0x20 + 64 * g + i) != 0)

/-- The generation in use (R466). -/
def Store.genInUse (x : Store) : Option Nat := ([3, 2, 1, 0] : List Nat).find? x.committed

/-- The slot of a new burn: after the highest touched one (R466). -/
def Store.nextGen (x : Store) : Nat :=
  match ([3, 2, 1, 0] : List Nat).find? x.touched with
  | some g => g + 1
  | none => 0

/-- A LED drive word set of loop n: W4 at its At SEED value (R467). -/
def ledWords (b : List Byte) (n : Nat) : LoopSt :=
  let w := fun i => BitVec.ofNat 64 (leAt b (8 * (13 + 4 * n + i)) 8)
  { LoopSt.init with w0 := w 0, w1 := w 1, w2 := w 2, w3 := w 3 }

/-- A safety-loop word as OTP holds it (R408, R468). -/
def otpLoopOk (w : Nat) (def_ : Bool) : Bool :=
  bitsAt w 0 10 == 0 && decide (bitsAt w 61 3 ≤ 4) && (!def_ || loopLo w != loopHi w)

/-- The fields of a settings block are legal (R467, R468). -/
def otpFieldsOk (b : List Byte) : Bool :=
  let w := fun n => leAt b (8 * n) 8
  bitsAt (w 0) 0 3 == 0 && bitsAt (w 0) 11 2 != 3 && bitsAt (w 1) 0 52 == 0 && timeWordOk (w 10) &&
    otpLoopOk (w 8) (bitAt (w 0) 5) && otpLoopOk (w 9) (bitAt (w 0) 5) && w 29 == 0 && w 30 == 0 && w 31 == 0 &&
    (List.range 4).all (fun n => loopWordsOk n (ledWords b n) (fun _ => true) && (ledWords b n).gmode == 0) &&
    (!bitAt (w 0) 13 || (List.range 6).any (fun i => w (2 + i) != 0))

/-- The 64 rows of a burn, in order: words 0 to 30, then the CRC row, then the MARK row (R468). -/
def otpRows (b : List Byte) : List Nat :=
  (List.range 62).map (fun i => leAt b (4 * i) 4) ++ [crc32c (b.take 248), 0xA5C35A3C]

/-- Rows burned in order; at a row that fails the burn ends, with a value there that no rule states (R465, R468). -/
def Store.burn (x : Store) (g : Nat) (rows : List Nat) (bad : Option Nat) (free : Nat) : Store :=
  let n := bad.getD 64
  let t := (rows.take n).zipIdx.foldl
    (fun (t : Tbl (BitVec 32)) (p : Nat × Nat) => Tbl.set 0 t (0x20 + 64 * g + p.2) (BitVec.ofNat 32 p.1)) x.rows
  { x with rows := if n < 64 then Tbl.set 0 t (0x20 + 64 * g + n) (BitVec.ofNat 32 (free % (2 ^ 32 - 1) + 1)) else t }

/-- OTP (R407, R468). -/
def State.otpRow (s : State) (src : Src) (b : List Byte) (bad : Option (Fin 64)) : State :=
  s.command src clOtp 0 (fun _ =>
    let g := (s.hay.store s.red.active).nextGen
    if b.length ≠ 256 then s
    else if !s.coolEnough then s.complete src .denied 1
    else if 3 < g then s.complete src .denied 2
    else if !otpFieldsOk b then s.complete src .illegal
    else
      let r := if bad.isSome then s.takeFree else (0, s)
      let s := s.hayHubs.foldl (fun s h =>
        s.modHay (fun y => y.setStore h ((y.store h).burn g (otpRows b) (bad.map (·.val)) r.1))) r.2
      if bad.isSome then (s.post .otpfail []).complete src .fault else (s.post .otpgen []).complete src .ok g)

/-! ### Meanings -/

def execEvent (s : State) : Host.Outcome State Fault Refusal := .next s.eventRow

def execLogBatch (s : State) : Host.Outcome State Fault Refusal := .next s.logBatch

def execLogSupp (s : State) : Host.Outcome State Fault Refusal := .next (s.when s.hayRuns State.reportSupp)

def execHaywardPoll (kind index : Nat) (value : Int) (s : State) : Host.Outcome State Fault Refusal :=
  .next (s.haywardPoll kind index value)

def execFwWdog (s : State) : Host.Outcome State Fault Refusal := .next s.fwWdog

def execFlashFail (h : Hub) (s : State) : Host.Outcome State Fault Refusal := .next (s.flashFail h)

def execFlashDone (s : State) : Host.Outcome State Fault Refusal := .next s.flashDone

def execHaywardUp (s : State) : Host.Outcome State Fault Refusal := .next s.haywardUp

def execRingRead (src : Src) (s : State) : Host.Outcome State Fault Refusal := .next (s.ringRead src)

def execReadlog (src : Src) (s : State) : Host.Outcome State Fault Refusal := .next (s.readLog src)

def execSetwriteMonitor (src : Src) (block : List Byte) (s : State) : Host.Outcome State Fault Refusal :=
  .next (s.setwrite src 1 (fun s => s.writeMonitor block))

def execSetwriteLoop (src : Src) (block : List Byte) (s : State) : Host.Outcome State Fault Refusal :=
  .next (s.setwrite src 2 (fun s => s.writeLoops block))

def execSetwriteTimeService (src : Src) (block : List Byte) (s : State) : Host.Outcome State Fault Refusal :=
  .next (s.setwrite src 3 (fun s => s.writeTimeWords block))

def execSetwriteLoopaLoopb (src : Src) (block : List Byte) (s : State) : Host.Outcome State Fault Refusal :=
  .next (s.setwrite src 4 (fun s => s.writeLoopWords block))

def execSetwriteNodeWord (src : Src) (block : List Byte) (s : State) : Host.Outcome State Fault Refusal :=
  .next (s.setwrite src 5 (fun s => s.writeNodeWord block))

def execSetread (src : Src) (s : State) : Host.Outcome State Fault Refusal := .next (s.setRead src)

def execMonrun (src : Src) (s : State) : Host.Outcome State Fault Refusal := .next (s.monRun src)

def execStage (src : Src) (image : List Byte) (failed : BitVec 2) (s : State) : Host.Outcome State Fault Refusal :=
  .next (s.stageRow src image failed)

def execVerify (src : Src) (failed : BitVec 2) (s : State) : Host.Outcome State Fault Refusal := .next (s.verifyRow src failed)

def execCommit (src : Src) (failed : BitVec 2) (s : State) : Host.Outcome State Fault Refusal := .next (s.commitRow src failed)

def execActivate (src : Src) (s : State) : Host.Outcome State Fault Refusal := .next (s.activateRow src)

def execOtp (src : Src) (block : List Byte) (badRow : Option (Fin 64)) (s : State) : Host.Outcome State Fault Refusal :=
  .next (s.otpRow src block badRow)

end Sys2Proof.Machine
end

