-- ==== Sys2Proof/Machine/Redundancy.lean ====
section
/-!
DEFINITION. Lockstep hubs: local errors and the judgement, switch-over, rejoin and warm-up, and the dual-clock FIFOs (R353, R354,
R360 to R382).
-/

namespace Sys2Proof.Machine

/-- The standby hub. -/
def State.standby (s : State) : Hub := s.red.active.other

/-! ### A hub leaves and enters lockstep (R365, R374, R378) -/

/-- A region link of a hub starts again from the records still to come (R373, R374). -/
def freshLink (f : Fe) : RLink := { RLink.init with read := f.drEnd, acked := f.drEnd }

/-- The FE dies no longer serve a hub's links, and its gates stamp no more items (R378). -/
def State.cutInputs (s : State) (h : Hub) : State :=
  let s := (List.range 8).foldl (fun s d => (s.modFe d (fun f => (f.setLink h (f.link h).fail).prune)).setLane d h []) s
  let clear := fun (i : GateItem) => match h with
    | .a => { i with stA := none, missA := false }
    | .b => { i with stB := none, missB := false }
  { s with red := { s.red with gates := (s.red.gates.map clear).filter (fun i => i.stA.isSome || i.stB.isSome) } }

/-- Lockstep ends: no digests are compared and the hub takes a role (R364, R365). -/
def State.leaveLockstep (s : State) (h : Hub) (r : Role) : State :=
  let s : State := { s with red := { s.red with lockstep := false, digOwn := [], digPart := [] } }
  let s := s.modHubRed h (fun x => { x with role := r, errs := [], eligAt := none, joinSeq := none, joinPhase := 0 })
  s.cutInputs h

/-- A switch-over (R368 to R370): the standby becomes active, the shared balls go to their safe states, time exchanges end, and a
monitor conversion restarts. -/
def State.switchOver (s : State) (cause : Nat) : State :=
  let old := s.red.active
  let s := s.toutHold.loopsGap
  let s := { s with red := { s.red with
    active := old.other, drive := none, switchAt := some s.clock.step, switches := s.red.switches + 1
    lastSwitch := s.clock.step, lastCause := Config.openCode 4 cause } }
  let s := (s.leaveLockstep old .faulty).modHubRed old.other (fun x => { x with role := .active, errs := [] })
  let s := (List.range 4).foldl (fun s p => s.abandonExch p) s
  let s : State := { s with mon := { s.mon with cur := s.mon.cur.map (fun r => { r with phase := .brk }) } }
  (s.cause 1).post .switch []

/-! ### The judgement (R362 to R365, R378) -/

/-- Errors of a hub that are judged at the boundary in progress: RLINK 40 steps after its report, the others 2 (R363, R364). -/
def errDue (n : Nat) : LocalErr × Nat → Bool
  | (.rlink _, t) => n == t + 40
  | (_, t) => decide (t + 2 ≤ n)

/-- A hub reported RLINK for a region by a step (R363). -/
def State.reported (s : State) (h : Hub) (r : Fin 8) (by_ : Nat) : Bool :=
  (s.hubRed h).errs.any (fun e => e.1 == .rlink r && decide (e.2 ≤ by_))

/-- A class-F error of a hub that makes it faulty at the boundary in progress; an RLINK that both hubs reported does not. -/
def State.faultOf (s : State) (h : Hub) : Option LocalErr :=
  ((s.hubRed h).errs.find? (fun e => e.1.cls == .f && errDue s.clock.step e &&
    (match e.1 with
     | .rlink r => !s.reported h.other r (e.2 + 38)
     | _ => true))).map (·.1)

/-- Regions that both hubs report: fenced at the step of the active hub's report (R363). -/
def State.bothFenced (s : State) : List (Fin 8) :=
  (s.hubRed s.red.active).errs.filterMap (fun e => match e.1 with
    | .rlink r => if s.clock.step = e.2 + 40 ∧ s.reported s.standby r (e.2 + 38) = true then some r else none
    | _ => none)

/-- A hub reported a class-R error since the last equal digests (R364). -/
def State.classR (s : State) (h : Hub) (upTo : Nat) : Bool :=
  (s.hubRed h).errs.any (fun e => e.1.cls == .r && decide (s.red.lastEq ≤ e.2) && decide (e.2 ≤ upTo))

/-- Reports that no later judgement needs are dropped. -/
def State.trimErrs (s : State) (h : Hub) : State :=
  s.modHubRed h (fun x => { x with errs := x.errs.filter (fun e => match e.1.cls, e.1 with
    | .f, .rlink _ => decide (s.clock.step < e.2 + 80)
    | .f, _ => decide (s.clock.step < e.2 + 2)
    | .r, _ => decide (s.red.lastEq ≤ e.2)
    | .p, _ => decide (s.clock.step < e.2 + 2)) })

/-- Directory entries of the slices released in the last 16 steps are recomputed (R212, R378). -/
def State.redoDirectory (s : State) (h : Hub) : State :=
  s.core.recent.foldl (fun s r => if s.clock.step ≤ r.2 + 16 then s.dirFix h (s.ring.size + s.ring.slot r.1 / 2) else s) s

/-- Output of the steps from a class-F error of the lone hub up to the entry into SAFE is not released (R361). -/
def State.withhold (s : State) (step : Nat) : State :=
  { s with pcie := { s.pcie with
      outQ := s.pcie.outQ.filter (fun o => decide (o.1 < step) || decide (s.clock.step ≤ o.1)) } }

/-- The judgement of a hub alone: a class-F error leads to SAFE, RLINK to a region fence (R378). -/
def State.judgeAlone (s : State) : State :=
  let h := s.red.active
  let due := (s.hubRed h).errs.filter (fun e => e.1.cls == .f && errDue s.clock.step e)
  let s := due.foldl (fun s e => match e.1 with
    | .rlink r => s.fenceRegion r
    | .memwrite => ((s.withhold e.2).redoDirectory h).enterSafe
    | _ => (s.withhold e.2).enterSafe) s
  (s.trimErrs h).modHubRed h.other (fun x => { x with errs := [] })

/-- What the faults of the two hubs lead to (R365). -/
def State.outcome (s : State) (fa fs : Option LocalErr) : State :=
  let std := s.standby
  match fa, fs with
  | none, none => s
  | none, some _ => s.leaveLockstep std .faulty
  | some _, some _ => (s.leaveLockstep std .faulty).enterSafe
  | some e, none =>
    match (s.hubRed std).role with
    | .eligible => s.switchOver (errCode e)
    | .warming => (s.switchOver (errCode e)).enterSafe
    | _ => s.enterSafe

/-- DIVERGE (R364, R377): the standby is resynchronised; twice within 1 s of eligibility it is faulty. -/
def State.diverge (s : State) : State :=
  let std := s.standby
  let again := match (s.hubRed std).eligAt with
    | some t => decide (s.clock.evals < t + 10000)
    | none => false
  let s := (s.bump (figRedund 3 0)).post .diverge []
  if again then ((s.bump (figRedund 3 1)).post .divrepeat []).leaveLockstep std .faulty
  else (s.leaveLockstep std .joining).modHubRed std (fun x => { x with joinPhase := 2 })

/-- The digests of a step compared: equal, or what a difference leads to (R364). Cause 0x20 is a difference. -/
def State.judgeDigests (s : State) (n : Nat) (own part : BitVec 32) : State :=
  if own = part then { s with red := { s.red with lastEq := n } }
  else
    let ra := s.classR s.red.active (n + 1)
    let rs := s.classR s.standby (n + 1)
    if ra && !rs then s.outcome (some .fifo) none
    else if rs && !ra then s.outcome none (some .fifo)
    else s.diverge

/-- Digests in hand are judged in the order of their steps, up to two steps back (R364). -/
def State.judgeSteps (s : State) : Nat → State
  | 0 => s
  | k + 1 =>
    match s.red.digOwn with
    | [] => s
    | (n, own) :: rest =>
      if !s.red.lockstep || decide (s.clock.step < n + 2) then s
      else
        match s.red.digPart.find? (fun p => p.1 == n) with
        | none => s
        | some p =>
          let s : State := { s with red := { s.red with digOwn := rest, digPart := s.red.digPart.filter (fun p => n < p.1) } }
          (s.judgeDigests n own p.2).judgeSteps k

/-- Paths that a hub has up (R365): the host path, then the ports. -/
def State.pathsUp (s : State) (h : Hub) : List Nat :=
  (if (s.ep h).linkUp then [4] else []) ++ (List.range 4).filter (fun p => ((s.port p).copy h).st == .up)

def errPath : LocalErr → Option Nat
  | .pciedown => some 4
  | .portdown p => some p.val
  | _ => none

/-- A path loss at the active leads to a switch-over when the eligible standby has up every path that the active had (R365). -/
def State.judgePaths (s : State) : State :=
  let lost := (s.hubRed s.red.active).errs.filterMap (fun e => if e.1.cls == .p && errDue s.clock.step e then errPath e.1 else none)
  let up := s.pathsUp s.standby
  if !lost.isEmpty && (s.hubRed s.standby).role == .eligible && (lost ++ s.pathsUp s.red.active).all (fun p => up.contains p) then
    s.switchOver 0x30
  else s

/-- The judgement at a step boundary (R364, R365, R378). -/
def State.judgement (s : State) : State :=
  if !s.red.lockstep then s.judgeAlone
  else
    let s := s.bothFenced.foldl (fun s r => s.fenceRegion r) s
    let fa := s.faultOf s.red.active
    let fs := s.faultOf s.standby
    let s := if fa.isSome || fs.isSome then s.outcome fa fs else s.judgeSteps s.red.digOwn.length
    let s := if s.red.lockstep then s.judgePaths else s
    (s.trimErrs .a).trimErrs .b

/-! ### Switch-over rows (R367, R368) -/

/-- What leaves again: released PCIe output from k + 1, now by the new active's endpoint, and the unacknowledged frames of the
ports (R292, R318, R368). -/
def State.replayed (s : State) : List Out :=
  s.pcie.replay.flatMap (fun o => match o.2 with
    | .msix _ v => if (s.ep s.red.active).mayInterrupt v then [Out.msix s.red.active v] else []
    | o => (s.ep s.red.active).tlps o) ++
    (List.range 4).flatMap (fun p => (s.port p).unacked.map (fun f =>
      Out.sent s.red.active p (portFrame f.2.2.1 true f.2.1 f.2.2.2)))

/-- REPLAY_RELEASE (R368): two steps after the judgement the new active takes the drive enable and replays. -/
def State.replayRelease (s : State) : State :=
  match s.red.switchAt with
  | none => s
  | some n =>
    if !s.live || decide (s.clock.step < n + 2) then s
    else
      let s : State := { s with red := { s.red with switchAt := none, drive := if s.red.held then none else some s.red.active } }
      let held := s.pcie.replay.filterMap (fun o => match o.2 with
        | .msix _ v => if (s.ep s.red.active).mayInterrupt v then none else some v
        | _ => none)
      let s : State := { s with pcie := { s.pcie with out := s.pcie.out ++ s.replayed } }
      let s := held.foldl (fun s v => s.holdMessage s.red.active v) s
      s.when s.red.drive.isSome State.loopsResume

/-- DRIVEHELD (R367): the enable is still held 4 steps after the switch-over; the node runs in SAFE without the shared balls. -/
def State.driveHeldRow (s : State) : State :=
  if !s.live || s.red.drive == some s.red.active || s.red.held || decide (s.clock.step < s.red.lastSwitch + 4) then s
  else ({ s with red := { s.red with held := true } }.post .driveheld [] (some s.red.active)).enterSafe

/-! ### Stile and liveness (R353, R354, R360, R362, R366) -/

/-- HUBSILENT (R354): a hub's liveness line has stopped. -/
def State.hubSilentRow (s : State) (h : Hub) : State :=
  let was := match h with
    | .a => s.red.silentA
    | .b => s.red.silentB
  if !s.live || was then s
  else
    let s : State := { s with red := match h with
      | .a => { s.red with silentA := true }
      | .b => { s.red with silentB := true } }
    s.post .hubsilent [] (some h.other)

/-- STILELOST (R366): with a silent active the standby takes over as in R365; otherwise the standby is faulty. -/
def State.stileLostRow (s : State) (silent : Bool) : State :=
  if !s.live || !s.red.stileUp || s.node.simplex then s
  else
    let s := { s with red := { s.red with stileUp := false } }.bump (figRedund 6 1)
    let s := if silent then s else s.post .stilelost []
    let dead := match s.red.active with
      | .a => s.red.silentA
      | .b => s.red.silentB
    if !s.red.lockstep then s
    else if silent ∧ dead = true then s.outcome (some .stepskew) none
    else s.leaveLockstep s.standby .faulty

/-- DIGEST (R360): the partner's digest of a step, by the low 16 bits of its number. -/
def State.digestRow (s : State) (step : BitVec 16) (crc : BitVec 32) : State :=
  if !s.live || !s.red.lockstep then s
  else
    match s.red.digOwn.find? (fun p => p.1 % 65536 == step.toNat) with
    | none => s
    | some p =>
      if s.red.digPart.any (fun q => q.1 == p.1) then s
      else { s with red := { s.red with digPart := s.red.digPart ++ [(p.1, crc)] } }

/-- LOCAL_ERROR (R362): a report over the stile; one already known adds nothing. MEMLATE raises its event here. -/
def State.localErrorRow (s : State) (h : Hub) (e : LocalErr) : State :=
  if !s.live || (s.hubRed h).errs.any (fun x => x.1 == e) then s
  else
    let s := s.localErr h e
    match e with
    | .memlate => (s.bump (figRedund 5 1 (h.idx + 1))).post .memlate [] (some h)
    | _ => s

/-! ### Rejoin (R372 to R377) -/

/-- Failed rejoins within the past hour. -/
def State.recentFails (s : State) (h : Hub) : List Nat :=
  (s.hubRed h).fails.filter (fun t => decide (s.clock.evals < t + hourEvals))

/-- Phase 1 resets everything of the joiner but its always-on domain, its loop and its configuration space (R373, R485). -/
def State.resetJoiner (s : State) (h : Hub) : State :=
  let e := s.ep h
  let s := s.setEp h { Endpoint.init with
    perst := e.perst, cfg := e.cfg, bme := e.bme, msix := e.msix, masked := e.masked,
    vectors := e.vectors, pba := e.pba, off := e.off, d3hot := e.d3hot, cause := 2 }
  (List.range 4).foldl (fun s p =>
    let c := (s.port p).copy h
    if c.st = .off then s
    else
      let s := s.detect h p
      s.modCopy h p (fun c => { c with wired := false })) s

/-- REJOIN (R372, R373, R377): phases 1 to 4 of a faulty hub, or 2 to 4 after DIVERGE, up to the wait for step J, or a failure in
the phase named. -/
def State.rejoinRow (s : State) (h : Hub) (failed : Option Nat) : State :=
  let x := s.hubRed h
  if !s.live || s.node.simplex || h == s.red.active || decide (s.node.mode.num < 3) ||
      !(x.role == .joining && x.joinPhase == 2 || x.role == .faulty && decide ((s.recentFails h).length < 3)) then s
  else
    let s := if x.role = .faulty then s.resetJoiner h else s
    match failed with
    | some p =>
      let fails := s.recentFails h ++ [s.clock.evals]
      (s.modHubRed h (fun x => { x with
        role := .faulty, fails := fails, attempts := x.attempts + 1, failPhase := p, joinPhase := 0 })).post .joinfail [] (some h)
    | none =>
      let s : State := { s with red := match h with
        | .a => { s.red with stileUp := true, silentA := false }
        | .b => { s.red with stileUp := true, silentB := false } }
      s.modHubRed h (fun x => { x with role := .joining, dead := false, attempts := x.attempts + 1, joinPhase := 5, errs := [] })

/-- At step J, with the epoch boundary, the joiner enters lockstep as a standby that is not eligible (R374 to R376). -/
def State.joinHub (s : State) : State :=
  let h := s.standby
  let x := s.hubRed h
  if x.role ≠ .joining ∨ x.joinPhase ≠ 5 then s
  else
    let s := (List.range 8).foldl (fun s d => (s.modFe d (fun f => f.setLink h { freshLink f with presets := s.linkPresets d h })).setLane d h []) s
    let s := s.modHubRed h (fun x => { x with role := .warming, joinPhase := 6, errs := [], joinSeq := some (s.fullSlice + 8) })
    { s with red := { s.red with
      lockstep := true, lastEq := s.clock.step, digOwn := [], digPart := []
      cntA := if h = .a then s.red.cntB else s.red.cntA, cntB := if h = .b then s.red.cntA else s.red.cntB } }

/-- Longest PRE + POST of the enabled conditions, or N in STREAMING, in coarse ticks (R376). -/
def State.longestWindow (s : State) : Nat :=
  if s.node.mode = .streaming then s.streamLen
  else (List.range s.decConds).foldl (fun m c =>
    if condEn (s.condWord c 3) && s.trig.mask.getLsbD c then max m (condPre (s.condWord c 4) + condPost (s.condWord c 4)) else m) 0

/-- The joiner's coverage reaches GDEPTH + W (R376): 1 µs is 1,280 coarse ticks. -/
def State.covered (s : State) (j : Nat) : Bool :=
  match s.ring.newest with
  | some n => decide (s.ring.gdepth * 1280 + s.longestWindow ≤ (n - j) * 4096)
  | none => false

/-- Eligibility at a slice boundary (R376). -/
def State.warmUp (s : State) : State :=
  let h := s.standby
  let x := s.hubRed h
  match x.joinSeq with
  | none => s
  | some j =>
    if x.role = .warming ∧ s.covered j = true then
      (s.modHubRed h (fun x => { x with role := .eligible, joinPhase := 7, eligAt := some s.clock.evals })).post .warm [] (some h)
    else if x.role = .eligible ∧ s.covered j = false then s.modHubRed h (fun x => { x with role := .warming, joinPhase := 6 })
    else s

/-- Lockstep begins once both hubs have finished SELFTEST (R435). -/
def State.startLockstep (s : State) : State :=
  if s.node.stdone && !s.red.lockstep && !s.node.simplex && (s.hubRed s.red.active).role == .active &&
      (s.hubRed s.standby).role == .eligible then
    { s with red := { s.red with lockstep := true, lastEq := s.clock.step, digOwn := [], digPart := [] } }
  else s

/-! ### Dual-clock FIFOs (R379 to R382) -/

/-- Number of a FIFO in the order of R382. -/
def fifoCode : Fifo → Nat
  | .ingress r => r | .tcmd => 8 | .memReturn => 9 | .memWrite => 10 | .pcieRx => 11 | .pcieTx => 12
  | .portRx p => 13 + p | .portTx p => 17 + p | .stileRx => 21 | .mailbox => 22 | .events => 23

/-- The hub's entries of a FIFO are lost; in lockstep the partner's copy holds on, and the hub that lost them is judged by its
local error. -/
def State.fifoLoses (s : State) (h : Hub) (f : Fifo) (lost : Nat) : State :=
  let alone := !s.red.lockstep && h == s.red.active
  match f with
  | .ingress r =>
    if alone then
      let s := s.setIngress r []
      let sl := ((s.sorter r).opened.map (·.slice.toNat)).getLastD (((s.sorter r).last.toNat + 1) % 4096)
      if s.core.running && !(s.sorter r).fenced then s.appendTo r sl (sheafLoss 0xF sl lost) false else s
    else s
  | .tcmd => if alone then { s with red := { s.red with gates := s.red.gates.filter (fun i => i.gate != .tcmd) } } else s
  | .memReturn => s.localErr h .memlate
  | .pcieRx | .pcieTx => if h = s.red.active then (srcs.filter s.reading).foldl (fun s x => s.dmaError x 0) s else s
  | .mailbox => if alone then { s with core := { s.core with mailbox := [] } } else s
  | .events =>
    if alone then ((s.modHay (fun y => { y with fifo := [] })).evLost lost true).2 else s
  | _ => s

/-- FIFO_POINTER_MISMATCH (R381, R382). -/
def State.fifoMismatch (s : State) (h : Hub) (f : Fifo) (lost : Nat) : State :=
  if !s.live || s.red.fifoReset.contains (h, f) then s
  else
    let s := s.bump (figRedund 7 0 (h.idx + 1) (fifoCode f))
    let s := { s with red := { s.red with fifoReset := s.red.fifoReset ++ [(h, f)] } }
    match f with
    | .stileRx => s.stileLostRow false
    | .memWrite => s.localErr h .memwrite
    | _ => ((s.post .fiforst [] (some h)).localErr h .fifo).fifoLoses h f lost

/-- FIFO_RESET_END (R381): the FIFO restarts. -/
def State.fifoResetDone (s : State) (h : Hub) (f : Fifo) : State :=
  { s with red := { s.red with fifoReset := s.red.fifoReset.filter (fun x => x != (h, f)) } }

/-! ### Parity and replay (R27 to R29) -/

/-- Key of a stage in the counts of replays. -/
def stageCode : Stage → Nat
  | .hub h n => 8 * (2 * n + h.idx)
  | .blockFifo b w => 8 * (3 * b + w) + 1
  | .derandomiser d h w => 8 * (6 * d + 3 * h.idx + w) + 2
  | .ingress h r w => 8 * (6 * r + 3 * h.idx + w) + 3
  | .cluster h n => 8 * (2 * n + h.idx) + 4

/-- The hub that owns a stage; none for the stages of an FE die. -/
def stageOwner : Stage → Option Hub
  | .blockFifo .. | .derandomiser .. => none
  | .ingress h .. | .cluster h _ | .hub h _ => some h

/-- Scope of a stage in the counts of poisoned words, per FIFO of R382 (R383). -/
def stageScope : Stage → Nat
  | .ingress _ r _ => fifoCode (.ingress r)
  | _ => whole

/-- A 32-bit word of a record (R101). -/
def rhrWord (r : Rhr) (w : Nat) : BitVec 32 := (r >>> (32 * w)).setWidth 32

/-- Bits of a word of a record flipped. -/
def rhrFlip (r : Rhr) (w : Nat) (err : BitVec 32) : Rhr := r ^^^ ((err.setWidth 96) <<< (32 * w))

/-- An FE record accepted with a bad word (R29): its local channel stays only while word 2 is good. -/
def FeRec.fail (r : FeRec) (w : Nat) : FeRec :=
  { r with poison := if w = 2 ∨ r.poison = some false then some false else some true }

/-- A record at ingress accepted with a bad word (R117). -/
def SRec.fail (r : SRec) (w : Nat) : SRec :=
  if w = 2 then { r with ok2 := false } else if w = 1 then { r with ok1 := false } else { r with ok0 := false }

/-- Change the first element of a list. -/
def modHead {α : Type} (f : α → α) : List α → List α
  | [] => []
  | x :: l => f x :: l

/-- Change the element at a place of a list. -/
def modAt {α : Type} (f : α → α) : List α → Nat → List α
  | [], _ => []
  | x :: l, 0 => f x :: l
  | x :: l, n + 1 => x :: modAt f l n

/-- Place in the derandomiser that a link reads next (R98). -/
def Fe.readPlace (f : Fe) (h : Hub) : Nat := max (f.link h).read f.drBase - f.drBase

/-- The word that a stage reads; 0 where it belongs to no record that State holds, or there is none. -/
def State.heldWord (s : State) : Stage → BitVec 32
  | .blockFifo b w => rhrWord (((s.block b).fifo.head?.map (·.bits)).getD 0) w
  | .derandomiser d h w => rhrWord ((((s.fe d).dr[(s.fe d).readPlace h]?).map (·.bits)).getD 0) w
  | .ingress _ r w => rhrWord (((s.ingress r).head?.map (·.bits)).getD 0) w
  | .cluster .. | .hub .. => 0

/-- The record that a stage reads is changed; the hub core holds the records of the hub in use. -/
def State.modHeld (s : State) (st : Stage) (fe : FeRec → FeRec) (hub : SRec → SRec) : State :=
  match st with
  | .blockFifo b _ => s.modBlock b (fun x => { x with fifo := modHead fe x.fifo })
  | .derandomiser d h _ => s.modFe d (fun f => { f with dr := modAt fe f.dr (f.readPlace h) })
  | .ingress h r _ => if h = s.red.active then s.setIngress r (modHead hub (s.ingress r)) else s
  | .cluster .. | .hub .. => s

/-- Word of a stage's record. -/
def stageWord : Stage → Nat
  | .blockFifo _ w | .derandomiser _ _ w | .ingress _ _ w => w
  | .cluster .. | .hub .. => 0

/-- PARITY_REPLAY (R27 to R29, R94, R117): the word that a stage reads arrives with some of its 33 bits flipped. A bad word is
replayed up to 3 times; after the third it is accepted poisoned, poisons its record, and is reported by the hub that owns the
stage. Flips that parity does not show change the record. -/
def State.parityReplay (s : State) (st : Stage) (err : BitVec 33) : State :=
  let k := stageCode st
  let w := stageWord st
  let n := Tbl.get 0 s.gmem.replays k
  let put := fun (v : Nat) (s : State) => { s with gmem := { s.gmem with replays := Tbl.set 0 s.gmem.replays k v } }
  if !s.live then s
  else if arrivesOk (s.heldWord st) err then
    let e := err.setWidth 32
    (put 0 s).modHeld st (fun r => { r with bits := rhrFlip r.bits w e }) (fun r => { r with bits := rhrFlip r.bits w e })
  else if n < 3 then
    match stageOwner st with
    | some h => (put (n + 1) s).bump (figRedund 6 0 (h.idx + 1))
    | none => put (n + 1) s
  else
    let s := (put 0 s).modHeld st (fun r => r.fail w) (fun r => r.fail w)
    match stageOwner st with
    | some h => (s.localErr h .wordpoison).bump (figRedund 7 1 (h.idx + 1) (stageScope st))
    | none => s

/-! ### Meanings -/

def execHubSilent (h : Hub) (s : State) : Host.Outcome State Fault Refusal := .next (s.hubSilentRow h)

/-- STEPSKEW (R353). -/
def execStepskew (h : Hub) (s : State) : Host.Outcome State Fault Refusal :=
  .next (s.when s.live (fun s => (s.localErr h .stepskew).post .stepskew [] (some h)))

def execDigest (step : BitVec 16) (crc : BitVec 32) (s : State) : Host.Outcome State Fault Refusal := .next (s.digestRow step crc)

def execLocalError (h : Hub) (err : LocalErr) (s : State) : Host.Outcome State Fault Refusal := .next (s.localErrorRow h err)

def execReplayRelease (s : State) : Host.Outcome State Fault Refusal := .next s.replayRelease

def execDriveHeld (s : State) : Host.Outcome State Fault Refusal := .next s.driveHeldRow

def execStileLost (silent : Bool) (s : State) : Host.Outcome State Fault Refusal := .next (s.stileLostRow silent)

def execRejoin (h : Hub) (failedPhase : Option Nat) (s : State) : Host.Outcome State Fault Refusal :=
  .next (s.rejoinRow h failedPhase)

def execFifoPointerMismatch (h : Hub) (fifo : Fifo) (lost : Nat) (s : State) : Host.Outcome State Fault Refusal :=
  .next (s.fifoMismatch h fifo lost)

def execFifoResetEnd (h : Hub) (fifo : Fifo) (s : State) : Host.Outcome State Fault Refusal :=
  .next (s.when s.live (fun s => s.fifoResetDone h fifo))

/-- CLKLOSS (R362, R452). -/
def execClkLoss (h : Hub) (s : State) : Host.Outcome State Fault Refusal :=
  .next (s.when s.live (fun s => (s.localErr h .clkloss).post .clkloss [] (some h)))

def execParityReplay (stage : Stage) (err : BitVec 33) (s : State) : Host.Outcome State Fault Refusal :=
  .next (s.parityReplay stage err)

end Sys2Proof.Machine
end

