-- ==== Sys2Proof/Machine/Power.lean ====
section
/-!
DEFINITION. The power ladder: entry into hush, rest, fallow and frost, and the way back (R54, R144, R226, R244, R270, R295, R313,
R333, R334, R445 to R448).
-/

namespace Sys2Proof.Machine

/-! ### Slices of a run -/

/-- The sorters take records of a full slice and later, those of earlier slices being late (R118); sheaves still open before it are dropped with their pages (R118, R123). -/
def State.aimSorters (s : State) (at_ : Nat) : State :=
  let one := fun (s : State) (r : Nat) =>
    let x := s.sorter r
    let s := s.freePagesOf ((x.opened ++ x.closed).flatMap (·.pages))
    s.setSorter r { Sorter.init with
      last := BitVec.ofNat 12 (at_ + 4095), lastEp := BitVec.ofNat 32 (at_ / 4096 + (if at_ % 4096 = 0 then 2 ^ 32 - 1 else 0))
      fenced := x.fenced, fenceEp := x.fenceEp, fenceSl := x.fenceSl, liftAt := x.liftAt, firstSl := at_ }
  (List.range 8).foldl one s

/-- The FE dies form slices from a full slice on (R97). -/
def State.aimDies (s : State) (at_ : Nat) : State :=
  s.allFes (fun _ f => { f with nextMarker := at_, counts := f.counts.filter (fun p => decide (at_ ≤ p.1)) })

/-- The run goes on at a full slice; the slices skipped get GAP entries (R206, R447). -/
def State.resumeRun (s : State) (at_ : Nat) : State :=
  if !s.core.running then s
  else
    let s := (s.aimSorters at_).aimDies at_
    { s with core := { s.core with gapFrom := some (s.core.gapFrom.getD s.core.nextSl), nextSl := at_ } }

/-! ### Entry (R445) -/

/-- A baler job is running. -/
def State.jobsRun (s : State) : Bool := (List.range 4).any (fun b => (s.baler b).job.isSome)

/-- The copies of every port announce QUIET and go idle; below rest they go off with their settings kept (R311, R313). -/
def State.lanesDown (s : State) (off : Bool) : State :=
  ([0, 1, 2, 3] : List (Fin 4)).foldl (fun s p =>
    let s := (s.goIdle .a p).goIdle .b p
    if off then
      let down := fun (c : PortCopy) => { c with st := .off, idle := false, quiet := false }
      s.modPort p (fun x => { x with copyA := down x.copyA, copyB := down x.copyB })
    else s) s

/-- The endpoint's link in a power state (R295): 0 L0, 1 L1, 2 L1.2. -/
def State.linkState (s : State) (h : Hub) (q : PState) : Nat :=
  let e := s.ep h
  let l1 := if e.aspmL1 then 1 else 0
  let mf := match h with
    | .a => 14
    | .b => 15
  match q with
  | .active | .hush => 0
  | .rest => l1
  | .fallow | .frost =>
    if e.aspmL1 && e.aspmL12 && decide ((s.holder resMf mf).map (·.user) = some userOutput) then 2 else l1

def State.setLinkStates (s : State) (q : PState) : State :=
  let one := fun (s : State) (h : Hub) =>
    let n := s.linkState h q
    s.setEp h { s.ep h with lstate := n, clkreq := n != 2 }
  one (one s .a) .b

/-- A tally run is abandoned without a result; the set-up starts afresh, and the stored means are not kept (R448). -/
def Tally.intoFrost (t : Tally) : Tally := { t.idle with setup := t.setup, baseRef := none, base := [] }

/-- The times of a set-up that the hub's counts time (R77, R448): sources 3 and 4 and difference runs; the other sources run on
XTAL. -/
def Tally.shift (o n : Nat) (t : Tally) : Tally :=
  match t.setup with
  | some x =>
    if x.diff || decide (2 < x.src) then
      { t with openAt := t.openAt + 512 * n - 512 * o, readySl := t.readySl + n / 4096 - o / 4096 }
    else t
  | none => t

/-- Entry into frost (R448): the log and the unread ring are written out, and what the retention bank does not hold is lost. -/
def State.intoFrost (s : State) : State :=
  let y := s.hay
  let unread := y.ring.drop (y.ring.length - y.unread)
  let s := s.flushLog
  let log := (s.hay.store s.red.active).log
  let s := (s.programLog s.hayHubs (unread.filter (fun e => !log.contains e))).hayDown
  let s := (List.range 8).foldl (fun s u => s.setTally u (s.tally u).intoFrost) s
  let fences := Tbl.mapAll Gleaner.init (fun _ x => { Gleaner.init with fenced := x.fenced }) s.core.gleaners
  { s with
    node := { s.node with frostAt := s.clock.evals }
    core := { s.core with
      ingress := [], sorters := Tbl.mapAll Sorter.init (fun _ x => { x with opened := [], closed := [] }) s.core.sorters
      usedPages := [], usedOut := 0, distrib := [], deques := [], gleaners := fences, done := [], service := [], mailbox := [] }
    red := { s.red with gates := [] } }

/-- Entry into a lower power state (R445, R447): the command waits for the baler jobs that run. -/
def State.enterLow (s : State) (src : Src) (q : PState) : State :=
  let s := s.stopTriggers.abortJobs
  if s.jobsRun then s
  else
    let s := if q = .hush then s else s.flushMerge
    let s := s.lanesDown (deepState q)
    let s := if deepState q then s.toutHold.loopsSafe.frontOff.dropStrobes else s
    let s := if q = .frost then s.intoFrost else s
    let s : State := { s with node := { s.node with pstate := q }, trig := { s.trig with busy := true } }
    (s.setLinkStates q).complete src .ok

/-! ### Exit (R446, R447) -/

/-- Node time in a frost of some always-on cycles of 20 ns: the advance in units of 2^-32 ns (R333). -/
def frostAdvance (cycles incr : Nat) : Nat := cycles * 20 * 2 ^ 32 * incr / 26843545600

/-- A full coarse time as it reads after the counts have restarted: `o` becomes `n`. -/
def shiftTime (o n t : Nat) : Nat := t + n - o

/-- The times of a conversion after the counts have restarted: its record keeps the stamps it has. -/
def Conv.shift (o n : Nat) (c : Conv) : Conv := { c with granted := shiftTime o n c.granted }

/-- A captured peak after the counts have restarted: its record keeps the stamps it has. -/
def Held.shift (o n : Nat) (h : Held) : Held := { h with at_ := shiftTime o n h.at_ }

/-- The times of a cell after the counts have restarted. -/
def Cell.shift (o n : Nat) (c : Cell) : Cell :=
  let f := shiftTime o n
  let h := fun (x : Option Held) => x.map (Held.shift o n)
  { c with
    settle := c.settle.map f, dither := c.dither.map f, start := f c.start, capAt := f c.capAt, resetAt := f c.resetAt
    rearmAt := f c.rearmAt, switchAt := c.switchAt.map f, slot0 := h c.slot0, slot1 := h c.slot1, slot2 := h c.slot2
    slot3 := h c.slot3 }

/-- The times of a block after the counts have restarted. -/
def Block.shift (o n : Nat) (b : Block) : Block :=
  let f := shiftTime o n
  { b with
    idleFrom := f b.idleFrom, resetTo := f b.resetTo, refPair := b.refPair.map (fun p => (p.1, f p.2))
    slices := Tbl.mapAll AdcSlice.init (fun _ x => { x with conv := x.conv.map (Conv.shift o n) }) b.slices }

/-- The full coarse times that the FE dies, the balls and BLANK hold keep their distance from the restart of the counts. -/
def State.rebase (s : State) (o n : Nat) : State :=
  let f := shiftTime o n
  let slice := shiftTime (o / 4096) (n / 4096)
  let die := fun (x : Fe) => { x with
    maskAt := x.maskAt.map f, maskEnd := x.maskEnd.map f, tpdacAt := x.tpdacAt.map f, injAt := x.injAt.map f
    injDue := x.injDue.map f, exclTo := f x.exclTo, hold := x.hold.map f, activeFrom := f x.activeFrom, holds := [], counts := []
    markQ := [], nextMarker := n / 4096 }
  let s : State := { s with
    cells := Tbl.mapAll Cell.init (fun _ c => c.shift o n) s.cells
    blocks := Tbl.mapAll Block.init (fun _ b => b.shift o n) s.blocks
    tdcs := Tbl.mapAll ChanTdc.init (fun _ t => { t with swapAt := slice t.swapAt, offered := t.offered.map f }) s.tdcs
    tallies := Tbl.mapAll Tally.init (fun _ t => t.shift o n) s.tallies
    core := { s.core with tableDue := s.core.tableDue.map (fun w => { w with at_ := slice w.at_ }) }
    time := { s.time with gens := Tbl.mapAll ToutGen.init (fun _ g => { g with trail := g.trail.map f }) s.time.gens }
    node := { s.node with blankAt := f s.node.blankAt } }
  s.allFes (fun _ x => die x)

/-- The epoch marker (R335). -/
def epochMark (epoch sec v : Nat) (wrap hold stepped free gap : Bool) : Rec128 :=
  BitVec.ofNat 128 (0x2 * 2 ^ 124 + epoch % 2 ^ 32 * 2 ^ 92 + sec % 2 ^ 32 * 2 ^ 60 + v / 2 ^ 32 % 2 ^ 30 * 2 ^ 30 +
    v / 2 ^ 16 % 2 ^ 16 * 2 ^ 14 + b2n wrap * 2 ^ 13 + b2n hold * 2 ^ 12 + b2n stepped * 2 ^ 11 + b2n free * 2 ^ 10 +
    b2n gap * 2 ^ 9)

/-- Exit from frost (R333, R334, R448): node time advances, both counts restart, the maps and the gleaners are loaded again. -/
def State.outOfFrost (s : State) : State :=
  let last := s.clock.epoch
  let total := s.timeAt 0 + frostAdvance ((s.clock.evals - s.node.frostAt) * 5000) s.time.incr + s.time.incr
  let ns := total / 2 ^ 32
  let n := ns / 13107200
  let tick := (ns - n * 13107200) * 128 / 100 / 8 * 8
  let back := (total : Int) - (tick % 4096 / 8 * s.time.incr : Nat)
  let mark := n * 13107200 * 2 ^ 32
  let gap := epochMark (n % 2 ^ 32) (mark / nsPerSec) (mark % nsPerSec) false s.node.refLost false s.time.slave.isNone true
  let full := (s.epochNear (BitVec.ofNat 32 n)).toNat
  let s := s.rebase s.coarse0 (full * 2 ^ 24 + tick)
  let s : State := { s with
    clock := { s.clock with
      epoch := BitVec.ofNat 32 n, era := full / 2 ^ 32, slice := BitVec.ofNat 12 (tick / 4096), tick := 0, epochDone := false }
    time := { s.time with
      sec := (back.toNat / nsPerSec) % 2 ^ 48, v := back.toNat % nsPerSec, marks := [(none, gap)] }
    tdcs := (List.range 4096).foldl (fun t ch => Tbl.set ChanTdc.init t ch { ChanTdc.init with active := s.seedMap ch })
      (s.tdcs.filter (fun p => decide (4096 ≤ p.1))) }
  let s := match s.node.prog with
    | some p => s.setUpGleaners p.entry false
    | none => s
  s.post .timegap [(last.toNat, 32), (n % 2 ^ 32, 32)]

/-- Every enabled cell settles after its amplifier is on again, from a full coarse time (R54); from below hush its held peaks are
gone. -/
def Cell.wake (c : Cell) (t : Nat) (deep : Bool) : Cell :=
  let c := if deep then { c with slot0 := none, slot1 := none, slot2 := none, slot3 := none } else c
  { c with
    phase := if c.freeSlot.isSome then .armed else .waitSlot, disc := false, switchAt := none, dither := none
    settle := if enOf c.w then laterSettle c.settle (t + (if deep then settleLong else settleShort)) else c.settle }

/-- A block whose ADC was off: conversions in flight are gone, and from below hush what it holds (R86, R447). -/
def Block.wake (b : Block) (deep : Bool) : Block :=
  if deep then { b with slices := Tbl.mapAll AdcSlice.init (fun _ x => { x with conv := none }) b.slices, fifo := [], reserved := 0 } else b

/-- Port copies that the program claims enter WAKE at their stored rate (R313). -/
def State.lanesUp (s : State) : State :=
  (List.range 4).foldl (fun s p =>
    if (s.holder resPort p).isNone then s
    else
      let up := fun (c : PortCopy) => if c.st = .off then { c with st := .wake } else c
      s.modPort p (fun x => { x with copyA := up x.copyA, copyB := up x.copyB })) s

/-- Return to ACTIVE (R54, R90, R446): the cells are switched on at a tick and settle from there, and the run goes on at the next
whole slice. -/
def State.intoActive (s : State) (old : PState) (tick : BitVec 12) : State :=
  let deep := old != .hush
  let now := s.coarse tick
  let s := { s with cells := Tbl.mapAll Cell.init (fun _ c => c.wake now deep) s.cells
                    blocks := Tbl.mapAll Block.init (fun _ b => b.wake deep) s.blocks }
  let s := s.allFes (fun _ f => { f with activeFrom := now })
  s.lanesUp.resumeRun (s.fullSlice + 1)

/-- A POWER to a higher state (R446). -/
def State.wakeTo (s : State) (src : Src) (q : PState) (tick : BitVec 12) : State :=
  let old := s.node.pstate
  let s := if old = .frost then s.outOfFrost else s
  let s : State := { s with node := { s.node with pstate := q } }
  let s := if deepState old && !deepState q then s.loopsReturn.toutReturn else s
  let s := if q = .active then s.intoActive old tick else s
  (s.setLinkStates q).complete src .ok

/-- A POWER command (R186, R445, R446); on a return to ACTIVE the cells are switched on at the tick. -/
def State.powerRow (s : State) (src : Src) (q : PState) (tick : BitVec 12 := 0) : State :=
  s.command src clPower q.num (fun _ =>
    let p := s.node.pstate
    if p = q then s.complete src .ok
    else if p.num < q.num then s.enterLow src q
    else s.wakeTo src q tick)

/-! ### Meanings -/

def execPowerActive (src : Src) (tick : BitVec 12) (s : State) : Host.Outcome State Fault Refusal :=
  .next (s.powerRow src .active tick)

def execPowerHush (src : Src) (s : State) : Host.Outcome State Fault Refusal := .next (s.powerRow src .hush)

def execPowerRest (src : Src) (s : State) : Host.Outcome State Fault Refusal := .next (s.powerRow src .rest)

def execPowerFallow (src : Src) (s : State) : Host.Outcome State Fault Refusal := .next (s.powerRow src .fallow)

def execPowerFrost (src : Src) (s : State) : Host.Outcome State Fault Refusal := .next (s.powerRow src .frost)

end Sys2Proof.Machine
end

