-- ==== Sys2Proof/Machine/Collector.lean ====
section
/-!
DEFINITION. The collector and the fencing of gleaners: slice release into the ring, the directory, the service ring and the trigger
engine, the sheaf watchdog, and the second run of a sheaf (R126, R127, R134, R138 to R141, R205, R206, R237, R335).
-/

namespace Sys2Proof.Machine

/-! ### What a slice holds (R126) -/

/-- The collector waits for the sheaf of a region: the region is not fenced for the slice (R112, R113, R126). -/
def State.waitsFor (s : State) (r q : Nat) : Bool :=
  !(s.sorter r).fenced &&
    (match (s.sorter r).fromSl with
     | some n => decide (n ≤ q)
     | none => true)

/-- The output of a region's sheaf of a slice. -/
def State.doneOf (s : State) (r q : Nat) : Option DoneSheaf := s.core.done.find? (fun d => d.region == r && d.seq == seqOf q)

/-- The next slice can be released (R126): it is over, it belongs to the run, and the sheaves waited for are done. -/
def State.canRelease (s : State) : Bool :=
  let q := s.core.nextSl
  s.awake && s.core.running && decide (q < s.fullSlice) &&
    (match s.core.stopSl with
     | some n => decide (q < n)
     | none => true) &&
    allBelow 8 (fun r => !s.waitsFor r q || (s.doneOf r q).isSome)

/-- Primitives of a slice that are released (R134). -/
def primLimit : Nat := 4096

/-- The collector's slice marker (R127). -/
def sliceMarker (q fenced nrec nlost pdrop : Nat) (hold forced : Bool) : Rec128 :=
  BitVec.ofNat 128 (0x3 * 2 ^ 124 + q / 4096 % 2 ^ 32 * 2 ^ 92 + q % 4096 * 2 ^ 80 + fenced % 256 * 2 ^ 72 + nrec % 2 ^ 24 * 2 ^ 48 +
    min nlost 0xFFFF * 2 ^ 32 + min pdrop 0xFFFF * 2 ^ 16 + b2n hold * 2 ^ 15 + b2n forced * 2 ^ 14)

/-- The epoch markers that precede a slice: that of its epoch, and the one that follows frost (R126, R334, R335). -/
def State.marksOf (s : State) (q : Nat) : List Rec128 :=
  (s.time.marks.filter (fun m => m.1 == none || m.1 == some q)).map (·.2)

/-- A slice as it is released (R126): its records in order, its primitives, and the fields of its marker and of its entry. -/
structure Release where
  marks  : List Rec128
  chrs   : List (Nat × Rec128)
  prims  : List (BitVec 64)
  pdrop  : Nat
  fenced : Nat
  nlost  : Nat
  hold   : Bool
  forced : Bool
  deriving DecidableEq, Repr

def State.releaseOf (s : State) (q : Nat) : Release :=
  let ds := (List.range 8).filterMap (fun r => s.doneOf r q)
  let prims := ds.flatMap (·.prims)
  { marks := s.marksOf q
    chrs := ds.flatMap (fun d => d.recs.map (fun x => (d.region, x)))
    prims := prims.take primLimit
    pdrop := (ds.map (·.pdrop)).sum + (prims.length - primLimit)
    fenced := ((List.range 8).filter (fun r => (s.doneOf r q).isNone)).foldl (fun a r => a + 2 ^ r) 0
    nlost := (ds.map (·.nlost)).sum
    hold := ds.any (·.hold)
    forced := ds.any (·.forced) }

def Release.marker (x : Release) (q : Nat) : Rec128 :=
  sliceMarker q x.fenced x.chrs.length x.nlost x.pdrop x.hold x.forced

/-! ### The ring (R205 to R207) -/

/-- Records of a ring line (R205). -/
def lineRecs : Nat := 7

/-- Records cut into lines. -/
def cutLines : Nat → List Rec128 → List (List Rec128)
  | 0, _ => []
  | n + 1, rs => if rs.isEmpty then [] else rs.take lineRecs :: cutLines n (rs.drop lineRecs)

/-- A ring line of records. -/
def ringLine (n pass q : Nat) (rs : List Rec128) (last : Bool) : Line :=
  makeLine (leNat (rs.flatMap (fun r => leBytes 16 r.toNat)))
    ({ pass := pass, epoch := q / 4096 % 65536, slice := q % 4096, nrec := rs.length, area := Area.ring.code, poison := false
       init := false, last := last, kept := false : LineHead }.word)
    (lineMark n writerCollector)

/-- The collector writes lines from W on (R205). -/
def State.writeRing (s : State) (q : Nat) : List (List Rec128) → State
  | [] => s
  | rs :: rest =>
    let n := s.ring.w
    let s := s.writeFull n (ringLine n s.ring.p.toNat q rs rest.isEmpty)
    let s : State :=
      if n + 1 < s.ring.size then { s with ring := { s.ring with w := n + 1 } }
      else { s with ring := { s.ring with w := 0, p := s.ring.p + 1 } }
    s.writeRing q rest

/-- Write the entry of a slice into its slot (R206). -/
def State.dirPut (s : State) (e : DirEntry) : State :=
  let r := s.ring
  let j := r.slot e.seq
  let s : State :=
    if j = r.j then s
    else { s with ring := { r with j := j, d := if j < r.j then r.d + 1 else r.d, even := if j % 2 = 0 then none else r.even } }
  s.dirWrite e

/-- Entries of skipped slices (R206). DEDUCED: FIRST and PASS are those of the next line to write, from which R212 takes the place of
the slice after it. -/
def Ring.gapEntry (r : Ring) (q : Nat) : DirEntry := { emptyEntry q r.w r.p.toNat with gap := true }

/-- Write the entries of the slices skipped from `a` up to `b`, at most 112,640 of them (R206). -/
def State.writeGaps (s : State) (a b : Nat) : State :=
  let n := min (b - a) dirSlots
  (List.range n).foldl (fun s i => s.dirPut (s.ring.gapEntry (b - n + i))) s

/-- The directory entry of a released slice that starts at a line of a pass (R207). -/
def Release.entry (x : Release) (q first pass lines nrec : Nat) : DirEntry :=
  entryOf q first pass lines nrec
    (x.chrs.zipIdx.map (fun p => ⟨(x.marks.length + p.2) / lineRecs, some p.1.1, p.1.2⟩)) ⟨x.fenced, x.nlost, x.hold, x.forced⟩

/-! ### SLICE_RELEASE -/

/-- Sheaves of released slices leave the collector, and their pages return to the pools (R123, R128). -/
def State.dropDone (s : State) (q : Nat) : State :=
  let gone := fun (d : DoneSheaf) => reachedMod 44 (seqOf q) d.seq
  let old := s.core.done.filter gone
  let s := s.freePagesOf (old.flatMap (·.pages))
  s.modCore (fun c => { c with
    done := c.done.filter (fun d => !gone d), usedOut := c.usedOut - (old.map (·.outPages)).sum })

/-- The slice goes into the ring and the directory, after the entries of the slices skipped (R204 to R207). -/
def State.storeSlice (s : State) (q : Nat) (x : Release) (recs : List Rec128) : State :=
  let s := match s.core.gapFrom with
    | some a => (s.writeGaps a q).modCore (fun c => { c with gapFrom := none })
    | none => s
  let lines := cutLines (recs.length + 1) recs
  let e := x.entry q s.ring.w s.ring.p.toNat lines.length recs.length
  (s.writeRing q lines).dirPut e

/-- SLICE_RELEASE (R126): the slice is emitted in order, stored, and the windows that it completes close (R237). -/
def State.releaseSlice (s : State) : State :=
  if !s.canRelease then s
  else
    let q := s.core.nextSl
    let x := s.releaseOf q
    let svc := s.core.service
    let recs := x.marks ++ x.chrs.map (·.2) ++ [x.marker q] ++ svc
    let s := s.storeSlice q x recs
    let s := s.sendPrims q x.prims
    let s := if (x.marks ++ svc).isEmpty then s else s.addService q (x.marks ++ svc)
    let s := (s.tallyHits q (x.chrs.map (·.2))).dropDone q
    let s : State := { s with
      time := { s.time with marks := s.time.marks.filter (fun m => match m.1 with
        | none => false
        | some n => decide (q < n)) }
      core := { s.core with
        nextSl := q + 1, service := []
        recent := (s.core.recent ++ [(q, s.clock.step)]).filter (fun r => decide (s.clock.step ≤ r.2 + 16)) } }
    s.closeWindows.checkStop

/-! ### Fencing (R138 to R141, R169) -/

/-- Steps of the sheaf watchdog (R138). -/
def State.swdog (s : State) : Nat := (s.node.prog.map (·.swdog)).getD 4096

/-- SHEAF_WATCHDOG (R138): a sheaf without done within SWDOG counted steps is a fault of the gleaner. -/
def State.sheafWatchdog (s : State) (g : Nat) : State :=
  let x := s.gleaner g
  s.when (s.awake && s.loaded && x.sheaf.isSome && x.fault.isNone && decide (s.swdog ≤ x.watch)) (fun s =>
    s.setGleaner g { x with fault := some (7, x.pc) })

/-- The output of an aborted run is discarded and its output pages return (R139). -/
def State.dropOutput (s : State) (g : Nat) : State :=
  let x := s.gleaner g
  (s.modCore (fun c => { c with usedOut := c.usedOut - x.pages })).setGleaner g
    { x with
      sheaf := none, cursor := 0, watch := 0, out := [], prims := [], pdrop := 0, pages := 0, outLost := 0, outCap := false }

/-- What the collector gets for an abandoned sheaf (R140). DESIGN CHOICE: COARSE of its loss record is the first coarse tick of the
sheaf's slice, as for the loss records of R112 and R119 (log 154). -/
def abandoned (sh : Sheaf) : DoneSheaf :=
  let loss := 0x4 * 2 ^ 124 + 0xE * 2 ^ 120 + sh.slice.toNat * 4096 * 2 ^ 96 + min sh.recs.length 0xFFFF * 2 ^ 80
  { region := sh.region, seq := sh.seq, recs := [BitVec.ofNat 128 loss], prims := [], pdrop := 0, nlost := sh.nlost, hold := sh.hold
    forced := true, pages := sh.pages, outPages := 0 }

/-- A sheaf whose run ended in a fence runs again, or is abandoned after its second run (R139, R140). -/
def State.rerun (s : State) (quarter : Nat) (sh : Sheaf) : State :=
  if 2 ≤ sh.run then
    ((s.modCore (fun c => { c with done := c.done ++ [abandoned sh] })).bump (figIngress 6)).post .sheaflost
      [(sh.seq, 44)]
  else s.replaceSheaf quarter sh

/-- A gleaner leaves its sheaf, which runs again (R139). -/
def State.emptyGleaner (s : State) (g : Nat) : State :=
  let sh := (s.gleaner g).sheaf
  let s := s.dropOutput g
  match sh with
  | some x => s.rerun (g / 32) x
  | none => s

/-- A fenced gleaner's deque entries are placed as its sheaf is, head first (R139). -/
def State.emptyDeque (s : State) (g : Nat) : State :=
  let rest := s.deque g
  rest.foldl (fun s x => s.replaceSheaf (g / 32) x) (s.setDeque g [])

/-- A gleaner's fence takes effect (R139): GFENCE with the gleaner, the sheaf, the cause and the address (R169). DESIGN CHOICE: a
gleaner that holds no sheaf gives sheaf sequence number 0 (log 155). -/
def State.fenceGleaner (s : State) (g : Nat) : State :=
  let x := s.gleaner g
  match x.fault with
  | none => s
  | some (cause, pc) =>
    let seq := (x.sheaf.map Sheaf.seq).getD 0
    let s := s.setGleaner g { x with fenced := true, fault := none, wait := .run }
    ((s.emptyGleaner g).emptyDeque g).post .gfence [(g, 7), (seq, 44), (cause, 4), (pc.toNat, 17)]

/-- Fenced gleaners of a quarter. -/
def State.fencedIn (s : State) (q : Nat) : Nat := ((List.range 32).filter (fun i => (s.gleaner (q * 32 + i)).fenced)).length

/-- A quarter with 16 or more fenced gleaners is fenced as a whole (R141): the sheaves in work run again elsewhere, and the entries of
its deques stand first in the distributor, so that the placement of this boundary puts them into the other quarters by R125. -/
def State.fenceQuarter (s : State) (q : Nat) : State :=
  if bitAt s.core.quarters.toNat q || decide (s.fencedIn q < 16) then s
  else
    let gs := (List.range 32).map (fun i => q * 32 + i)
    let s := s.modCore (fun c => { c with quarters := c.quarters ||| BitVec.ofNat 4 (2 ^ q) })
    let s := gs.foldl State.emptyGleaner s
    let entries := gs.flatMap s.deque
    let s := gs.foldl (fun s g => s.setDeque g []) s
    s.modCore (fun c => { c with distrib := entries ++ c.distrib })

/-- The fences of a step boundary (R139, R141), in the order of the gleaners. -/
def State.fenceAll (s : State) : State :=
  let gs := s.core.gleaners.filterMap (fun p => if p.2.fault.isSome then some p.1 else none)
  let s := gs.foldl State.fenceGleaner s
  if gs.isEmpty then s else (List.range 4).foldl State.fenceQuarter s

/-! ### Meanings -/

def execSliceRelease (s : State) : Host.Outcome State Fault Refusal := .next s.releaseSlice

def execSheafWatchdog (g : Fin 128) (s : State) : Host.Outcome State Fault Refusal := .next (s.sheafWatchdog g)

end Sys2Proof.Machine
end

