-- ==== Sys2Proof/Machine/Boundaries.lean ====
section
/-!
DEFINITION. Boundaries of slices and epochs: what takes effect at them, node time, runs that start and stop, fences lifted,
realignment, and the loss and return of REFCLK (R4, R31, R36, R52, R61, R65, R70 to R73, R82, R92, R113, R204, R230, R329 to R335,
R347, R349, R374, R376, R443, R444, R456, R488).
-/

namespace Sys2Proof.Machine

/-! ### Node time (R329 to R332) -/

/-- Node time moves on by a number of units of 2^-32 ns, seconds modulo 2^48 (R329, R331). -/
def TimeSvc.advance (t : TimeSvc) (d : Int) : TimeSvc :=
  let x := (t.sec * nsPerSec + t.v : Nat) + d
  { t with sec := (x / nsPerSec % 2 ^ 48).toNat, v := (x % nsPerSec).toNat }

/-- The REFCLK periods of a slice pass; at an epoch boundary the last increment comes after the writes that wait (R332). -/
def State.passSlice (s : State) (epoch : Bool) : State :=
  let t := s.time
  if !epoch then { s with time := t.advance (512 * t.incr) }
  else
    let incr := t.incrDue.getD t.incr
    { s with time := { t.advance (511 * t.incr + t.stepDue.getD 0 * 65536 + incr) with incr := incr, incrDue := none, stepDue := none } }

/-- The node time by which an epoch boundary misses the rule of R443, in units of 2^-32 ns: zero at the first REFCLK edge at or
after the target of the epoch number nearest to it. -/
def State.missOf (s : State) : Int :=
  let p := 13107200 * 2 ^ 32
  let t := s.timeAt 0
  let d : Int := signed 32 ((s.clock.epoch.toNat + 2 ^ 32 - t / p % 2 ^ 32) % 2 ^ 32)
  let m : Int := (t : Int) - (((t / p : Nat) : Int) + d) * (p : Int)
  if 0 ≤ m ∧ m < s.time.incr then 0 else m

/-! ### What an FE die does at a slice boundary (R36, R52, R61, R65, R95) -/

/-- Cells of a die take what waits (R36): every cell when TRANGE or HITLIM changes, else the listed ones. -/
def State.cellsAt (s : State) (d : Nat) (rg : Option (Nat × Nat)) (now : Nat) : State :=
  match rg with
  | none =>
    { s with cells := Tbl.mapAll Cell.init (fun ch c => if ch / 512 = d then c.boundary none now else c) s.cells }
  | some _ => (List.range 512).foldl (fun s i => s.modCell (512 * d + i) (fun c => c.boundary rg now)) s

/-- The region word of a die takes effect (R36, R52). -/
def State.regionAt (s : State) (d now : Nat) : State :=
  let f := s.fe d
  match f.regionWait with
  | none => s.cellsAt d none now
  | some w =>
    let old := f.region.vote.toNat
    let new := w.toNat
    let rg := if trangeOf new ≠ trangeOf old ∨ hitlimOf new ≠ hitlimOf old then some (trangeOf new, hitlimOf new) else none
    let s := s.setFe d { f with
      region := Trip.all w, regionWait := none, tpdacAt := if tpdacOf new ≠ tpdacOf old then some now else f.tpdacAt }
    s.cellsAt d rg now

/-- The control words of a die take effect, with the rate of its block ADCs (R65, R92, R95). -/
def State.controlsAt (s : State) (d : Nat) : State :=
  let s := s.modFe d (fun f => { f with
    tdcCtl := f.tdcWait.getD f.tdcCtl, tdcWait := none, feCtl := f.feWait.getD f.feCtl, feWait := none }.watermark)
  let lp := (s.fe d).adclp
  (List.range 8).foldl (fun s b => s.modBlock (8 * d + b) (fun x => { x with low := bitAt lp b })) s

/-- The slice boundary of a die, at a full coarse time (R36, R52, R61). -/
def State.dieAt (s : State) (d now : Nat) : State :=
  if (s.fe d).stopped then s
  else
    let s := (s.regionAt d now).controlsAt d
    let s := s.modFe d (fun f => { f with calqMaps := s.appliedMaps d f.calqMaps })
    let s : State := { s with
      tdcs := Tbl.mapAll ChanTdc.init (fun ch t => if ch / 512 = d then t.boundary (now / 4096) else t) s.tdcs }
    s.modFe d (fun f => if f.strobe then { f.injectAt now with strobe := false } else f)

/-- What takes effect at a slice boundary once the counts stand at the new slice. -/
def State.sliceActions (s : State) : State :=
  let now := s.coarse0
  let s := if deepState s.node.pstate then s.dropStrobes else (List.range 8).foldl (fun s d => s.dieAt d now) s
  let s := (List.range 4).foldl State.applyTout s
  s.warmUp.applyTables s.core.tableDue.length

/-! ### Runs (R204, R231, R239, R240, R244, R488) -/

/-- What an earlier run left in the hubs goes (R204). -/
def State.clearRun (s : State) : State :=
  let left := s.core.distrib ++ s.core.deques.flatMap (·.2)
  let s := s.freePagesOf (left.flatMap (·.pages) ++ s.core.done.flatMap (·.pages))
  s.modCore (fun c => { c with
    distrib := [], deques := [], done := [], usedOut := c.usedOut - (c.done.map (·.outPages)).sum })

/-- The pair in use when acquisition starts: TCMD when it is locked, even when it replaces TCMD2 (R230). -/
def State.tcmdStart (s : State) : State :=
  let t := s.trig.tcmd
  if !t.pair0.locked && !t.pair1.locked then s.tcmdLost
  else if t.inUse == some 1 && t.pair0.locked then s.tcmdUse 0
  else s

/-- The step of the mode script completes when it is a SCRIPT command of a SUB. -/
def State.endScriptStep (s : State) (sub : Nat) (f : Nat → Bool) (st : Status) : State :=
  match s.running? .script clScript sub with
  | some w => if f w then s.complete .script st else s
  | none => s

/-- The node is in STREAMING. -/
def State.streaming (s : State) : Bool := s.node.mode == .streaming

/-- P and D of a new run (R204): the last value plus 2; after SELFTEST both start at 2. -/
def Ring.nextPass (r : Ring) (x : BitVec 16) : BitVec 16 := if r.begun then x + 2 else x

/-- Acquisition starts at the boundary of the slice in progress (R204, R231, R239, R240). -/
def State.startRun (s : State) : State :=
  let q := s.fullSlice
  let s := if s.core.running then s.finishStop else s
  let s := s.clearRun.aimSorters q
  let r := s.ring
  let s := { s with
    ring := { r with
      q0 := q, w := 0, j := 0, even := none, p := r.nextPass r.p, d := r.nextPass r.d, p0 := r.nextPass r.p, newest := none
      begun := true }
    core := { s.core with
      running := true, startReq := false, stopReq := false, stopSl := none, startAt := s.coarse0, nextSl := q, gapFrom := none
      recent := [] }
    trig := { s.trig with
      nextNum := 0, mask := 0xFFFF, streamAt := some (s.coarse0 : Int) } }
  let s := if s.streaming && s.streamLen == 0 then s.post .nostream [] else s
  s.tcmdStart

/-- START_ACQUISITION at its epoch boundary; with a run in progress there is nothing to start. -/
def State.startAtEpoch (s : State) : State :=
  if !s.core.startReq || s.node.newEpoch.isSome then s
  else
    let s := if s.core.running && s.core.stopSl.isNone then s.modCore (fun c => { c with startReq := false }) else s.startRun
    s.endScriptStep 1 (fun w => bitAt (cmdArg0 w) 0) .ok

/-- STOP_ACQUISITION at its epoch boundary (R488). -/
def State.stopAtEpoch (s : State) : State :=
  if !s.core.stopReq then s
  else
    let s := (s.modCore (fun c => { c with stopReq := false })).stopAt s.fullSlice
    s.endScriptStep 1 (fun w => !bitAt (cmdArg0 w) 0) .ok

/-- Fences lifted at the boundary that starts an epoch (R113); the step completes, with WARN when the epoch it named had begun
before. -/
def State.liftAtEpoch (s : State) : State :=
  let s := (List.range 8).foldl (fun s r =>
    match (s.sorter r).liftAt with
    | some e => if s.epochBegun e.toNat then s.liftRegion (Fin.ofNat 8 r) s.clock.epoch else s
    | none => s) s
  match s.running? .script clScript 4 with
  | some w =>
    let waits := (List.range 8).any (fun r => bitAt (cmdArg0 w) r && (s.sorter r).fenced)
    if waits || !s.epochBegun (cmdArg1 w) then s
    else s.complete .script (if s.clock.epoch.toNat = cmdArg1 w % 2 ^ 32 then .ok else .warn)
  | none => s

/-! ### Realignment (R444) -/

/-- The lowest epoch number, not yet reduced, whose target lies at or after the node time plus 1 ms (R444 step 3). -/
def State.realignEpoch (s : State) : Nat :=
  let p := 13107200 * 2 ^ 32
  (s.timeAt 0 + 1000000 * 2 ^ 32 + p - 1) / p

/-- The boundary B of a realignment (R444 steps 1 to 3): the run ends, holdover ends, and the FE dies stop. -/
def State.realignAtEpoch (s : State) : State :=
  match s.node.realign with
  | none => s
  | some e =>
    if !s.epochBegun e.toNat then s
    else
      let b := s.coarse0
      let ran := s.core.running && s.core.stopSl.isNone
      let s := s.stopAt s.fullSlice
      let s := s.allFes (fun _ f => { f with
        stopped := true, hold := none
        holds := match f.hold with
          | some h => f.holds ++ [(h, b - 1)]
          | none => f.holds })
      { s with
        node := { s.node with realign := none, newEpoch := some s.realignEpoch, refLost := false, refBack := false }
        core := { s.core with startReq := ran } }

/-! ### EPOCH_BOUNDARY (R332) -/

/-- The items of a CALQ entry on the results applied in an interval: the worst one, of a number of bits, its figure, and the mean
figure (R456). -/
def Applied.items (a : Applied) (bits : Nat) : List (Nat × Nat) :=
  [(a.worst, bits), (min a.figure 0xFFFF, 16), (min (a.sum / max a.n 1) 0xFFFF, 16)]

/-- The CALQ entries of 4,096 epochs: for each FE die one on its maps and one on its block ADC slices, and one on the monitor ADC
(R456). -/
def State.calqAtEpoch (s : State) : State :=
  let n := s.hay.calqEpochs + 1
  if n < 4096 then s.modHay (fun y => { y with calqEpochs := n })
  else
    let s := s.modHay (fun y => { y with calqEpochs := 0 })
    let s := (List.range 8).foldl (fun s d =>
      let f := s.fe d
      let s := s.setFe d { f with calqMaps := Applied.zero, calqAdc := Applied.zero }
      (s.post .calq (f.calqMaps.items 12)).post .calq (f.calqAdc.items 6)) s
    let m := s.mon.calq
    { s with mon := { s.mon with calq := Applied.zero } }.post .calq (m.items 12) (some s.red.active)

/-- Node time is captured for the epoch marker of a run (R335). -/
def State.captureMark (s : State) (wrap stepped : Bool) : State :=
  if !s.awake || !s.core.running || s.core.stopSl.isSome then s
  else
    let m := epochMark s.clock.epoch.toNat s.time.sec s.time.v wrap s.node.refLost stepped s.time.slave.isNone false
    { s with time := { s.time with marks := s.time.marks ++ [(some s.fullSlice, m)] } }

/-- What the FE dies do at the start of an epoch: the setting sweep begins, and the counts kept per epoch start afresh (R37, R65,
R95, R110). -/
def State.diesAtEpoch (s : State) : State :=
  let fresh := fun (l : RLink) => { l with retries := 0, aligns := 0 }
  let s := s.allFes (fun _ f => { f with sweep := true, linkA := fresh f.linkA, linkB := fresh f.linkB })
  { s with tdcs := Tbl.mapAll ChanTdc.init (fun _ t => { t with hitsPrev := t.hitsNow, hitsNow := 0 }) s.tdcs }

/-- What takes effect at an epoch boundary once the counts and node time stand at it; `stepped` that an INCR write or a step took
effect, `forward` that the step went forward. -/
def State.epochActions (s : State) (stepped forward : Bool) : State :=
  let wrap := s.clock.epoch = 0
  let s : State := { s with time := { s.time with miss := s.missOf } }
  let s := if stepped then s.bump (figTime 2 1) else s
  let s := s.diesAtEpoch
  let s := if forward then (List.range 4).foldl State.toutStep s else s
  let s := s.stopAtEpoch.liftAtEpoch.realignAtEpoch.startAtEpoch
  (s.captureMark wrap stepped).calqAtEpoch.servoUpdate.joinHub

/-- The counts of coarse ticks run: outside frost, and not in TRIPPED (R3, R334). -/
def State.counting (s : State) : Bool := s.live && s.node.pstate != .frost

/-- The boundary that starts the next epoch, with the slice boundary that it is. -/
def State.newEpoch (s : State) : State :=
  let stepped := s.time.incrDue.isSome || s.time.stepDue.isSome
  let forward := decide (0 < s.time.stepDue.getD 0)
  let s := s.passSlice true
  let s : State := { s with clock := { s.clock with
    epoch := s.clock.epoch + 1, slice := 0, tick := 0, era := if s.clock.epoch = 0xFFFFFFFF then s.clock.era + 1 else s.clock.era } }
  (s.epochActions stepped forward).sliceActions

/-- SLICE_BOUNDARY (R36): the next slice begins. The last slice of an epoch ends with the epoch; where EPOCH_BOUNDARY came first,
the boundary has taken place. -/
def State.sliceBoundary (s : State) : State :=
  if !s.counting then s
  else if s.clock.epochDone then { s with clock := { s.clock with epochDone := false } }
  else if s.clock.slice = 0xFFF then s.newEpoch
  else
    let s := s.passSlice false
    { s with clock := { s.clock with slice := s.clock.slice + 1, tick := 0 } }.sliceActions

/-- EPOCH_BOUNDARY (R332): at the end of the last slice of an epoch. -/
def State.epochBoundary (s : State) : State :=
  if !s.counting || s.clock.slice != 0xFFF then s
  else { s.newEpoch with clock := { s.newEpoch.clock with epochDone := true } }

/-! ### EPOCH_RESTART (R444) -/

/-- REFCLK periods from the start of the slice in progress to the first edge at or after the target of an epoch number. -/
def State.edgesTo (s : State) (n : Nat) : Nat :=
  let t := n * 13107200 * 2 ^ 32 - s.timeAt 0
  (t + s.time.incr - 1) / s.time.incr

/-- EPOCH_RESTART (R444 steps 4 and 5): the count restarts at an edge of the slice in progress, and a run that ended starts again. -/
def State.epochRestart (s : State) : State :=
  match s.node.newEpoch with
  | none => s
  | some n =>
    let k := s.edgesTo n
    if !s.counting || decide (512 < k) || s.time.incr == 0 then s
    else
      let warn := s.node.reRun
      let full := (s.epochNear (BitVec.ofNat 32 n)).toNat
      let s := s.rebase (s.coarse0 + 8 * k) (full * 2 ^ 24)
      let s := (s.allFes (fun _ f => { f with stopped := false })).diesAtEpoch
      let s : State := { s with
        time := s.time.advance (k * s.time.incr)
        clock := { s.clock with epoch := BitVec.ofNat 32 n, era := full / 2 ^ 32, slice := 0, tick := 0, epochDone := false }
        node := { s.node with newEpoch := none, reRun := false } }
      let s := if s.core.startReq then s.startRun else s
      let s := (s.captureMark false false).sliceActions
      s.endScriptStep 3 (fun _ => true) (if warn then .warn else .ok)

/-! ### REFCLK (R70 to R73) -/

/-- REFLOST (R17, R70, R72), in every power state and in TRIPPED: the interval begins at the first coarse tick after the switch,
two FE logic cycles after the declaration. -/
def State.refLostRow (s : State) (tick : BitVec 12) : State := s.when s.node.pwrgd (fun s => s.loseRef (s.coarse tick + 9))

/-- REFBACK (R73): raised once for each loss, when tally unit 7 has found REFCLK within ±250 ppm since; the node stays in holdover. -/
def State.refBackRow (s : State) : State :=
  if !s.node.pwrgd || !s.node.refLost || s.node.refBack || !s.node.refSeen then s
  else ({ s with node := { s.node with refBack := true } }).post .refback []

/-! ### Meanings -/

def execSliceBoundary (s : State) : Host.Outcome State Fault Refusal := .next s.sliceBoundary

def execEpochBoundary (s : State) : Host.Outcome State Fault Refusal := .next s.epochBoundary

def execEpochRestart (s : State) : Host.Outcome State Fault Refusal := .next s.epochRestart

def execRefLost (tick : BitVec 12) (s : State) : Host.Outcome State Fault Refusal := .next (s.refLostRow tick)

def execRefBack (s : State) : Host.Outcome State Fault Refusal := .next s.refBackRow

end Sys2Proof.Machine
end

