-- ==== Sys2Proof/Machine/Steps.lean ====
section
/-!
DEFINITION. The step boundary: gates deliver, sheaves are placed and taken, fences, watermarks, judgements, job starts, and the
release of outputs (R15, R118, R125, R138, R166, R248, R253, R292, R316, R318, R322, R344, R353 to R365, R403, R435).
-/

namespace Sys2Proof.Machine

/-- The hub core runs: outside fallow, frost and TRIPPED (R447). -/
def State.coreRuns (s : State) : Bool := s.live && !deepState s.node.pstate

/-! ### Digests (R360) -/

/-- The digest of a step that has ended. The manual does not state how a step's words are serialised, so its value is free. -/
def State.ownDigest (s : State) : State :=
  if !s.red.lockstep then s
  else
    let r := s.takeFree
    { r.2 with red := { r.2.red with digOwn := r.2.red.digOwn ++ [(s.clock.step, BitVec.ofNat 32 r.1)] } }

/-! ### Delivery of the gates (R118, R233, R355 to R358) -/

/-- Records of an ingress FIFO (R115). -/
def ingressCapacity : Nat := 1024

/-- An item goes back to its place at its gate. -/
def putBack (x : GateItem) : List GateItem → List GateItem
  | [] => [x]
  | y :: l => if y.gate = x.gate ∧ x.idx < y.idx then x :: y :: l else y :: putBack x l

/-- A record or an indication that a gate delivers; a record for which its ingress FIFO has no room waits at the gate (R115); an
instance is tested with the others of its step. -/
def State.deliverItem (s : State) (i : GateItem) : State :=
  match i.item with
  | .raw r x =>
    if ingressCapacity ≤ (s.ingress r).length then { s with red := { s.red with gates := putBack i s.red.gates } }
    else
      let s := s.setIngress r (s.ingress r ++ [x])
      s.peak (figIngress 2 r) (s.ingress r).length
  | .throttle _ c => { s with thermal := { s.thermal with level := levelOfCode c } }
  | .inst .. => s

/-- The instances among delivered items. -/
def instances (l : List GateItem) : List (Nat × Nat × Nat × Tbl Nat × Nat) :=
  l.filterMap (fun i => match i.item with
    | .inst f v t fs => some (f, v, t, fs, i.earliest)
    | _ => none)

/-- The gates deliver, the sorter takes records, and the ingress watermarks act. -/
def State.deliverGates (s : State) : State :=
  let p := s.gateDue
  let s := p.1.foldl State.deliverItem p.2
  let s := (List.range 8).foldl (fun s r => (s.drainIngress r (s.ingress r).length).ingressMarks r) s
  if s.awake then s.testInstances (instances p.1) else s

/-! ### Gleaners (R125, R138, R166, R169, R403) -/

/-- An opcode of the instruction table. -/
def opListed (w : Nat) : Bool := decide (1 ≤ opField w) && decide (opField w ≤ 0x3E)

/-- A gleaner at an unlisted opcode stops (R152, R169). -/
def State.stopUnlisted (s : State) : State :=
  (List.range gleaners).foldl (fun s g =>
    if s.issues g && !opListed (s.codeWord (s.gleaner g).pc) then s.setGleaner g ((s.gleaner g).trap 1) else s) s

/-- A gleaner at a step boundary: the watchdog counts a step, and a waitev on a boundary ends (R138, R166). -/
def Gleaner.atStep (x : Gleaner) : Gleaner :=
  let x := { x with watch := if x.sheaf.isSome then x.watch + 1 else x.watch }
  if x.fault.isSome || x.fenced then x else x.endWait true false

/-- Apply a function to every gleaner. -/
def State.allGleaners (s : State) (f : Gleaner → Gleaner) : State :=
  s.modCore (fun c => { c with gleaners := Tbl.mapAll Gleaner.init (fun _ x => f x) c.gleaners })

/-- Placement, takes and steals (R125). -/
def State.placeSheaves (s : State) : State :=
  let s := s.place
  let s := (List.range gleaners).foldl State.takeOwn s
  (List.range gleaners).foldl State.steal s

/-- The gleaners at a step boundary: they run in ACTIVE with a program in force (R144). -/
def State.gleanersAtStep (s : State) : State :=
  if !s.awake || !s.loaded then s
  else
    let s := (s.stopUnlisted.fenceAll.allGleaners Gleaner.atStep).placeSheaves
    s.allGleaners (fun x => { x with idle := x.idle - 1 })

/-! ### Release of outputs (R292, R315 to R318, R361, R365) -/

/-- Outputs of a step may leave at the boundary in progress (R361, R368). -/
def State.released (s : State) (t : Nat) : Bool :=
  decide (t + 2 ≤ s.clock.step) && s.red.switchAt.isNone && (!s.red.lockstep || decide (t ≤ s.red.lastEq))

/-- PCIe output of a step can leave: the endpoint can send, and no step eight or more before it is unacknowledged (R277, R292,
R295). -/
def State.pcieOpen (s : State) (t : Nat) : Bool :=
  let e := s.ep s.red.active
  e.linkUp && e.bme && !e.d3hot && s.pcie.replay.all (fun r => decide (t < r.1 + 8))

/-- A copy of a port in UP can send; QUIET is what an idle one still sends (R311). -/
def State.copyOpen (s : State) (h : Hub) (p : Nat) (quiet : Bool := false) : Bool :=
  let c := (s.port p).copy h
  c.st == .up && (!c.idle || quiet)

/-- What leaves is appended to what has left. -/
def State.leaves (s : State) (o : Out) : State := { s with pcie := { s.pcie with out := s.pcie.out ++ [o] } }

/-- An output of a step stays in the queue. -/
def State.keeps (s : State) (x : Nat × Out) : State := { s with pcie := { s.pcie with outQ := s.pcie.outQ ++ [x] } }

/-- PCIe output leaves and is kept for replay until it is acknowledged (R292). -/
def State.leavesPcie (s : State) (x : Nat × Out) : State :=
  let s := ((s.ep s.red.active).tlps x.2).foldl State.leaves s
  let s : State := { s with pcie := { s.pcie with replay := s.pcie.replay ++ [x] } }
  let used := match s.pcie.replay with
    | r :: _ => x.1 + 1 - r.1
    | [] => 0
  { s with pcie := { s.pcie with peak := max s.pcie.peak used } }

/-- A sequenced frame leaves with the port's next FSEQ (R316, R318). -/
def State.leavesFrame (s : State) (t p ty : Nat) (bs : List Byte) : State :=
  let x := s.port p
  let s := s.setPort p { x with txseq := x.txseq + 1, unacked := x.unacked ++ [(t, x.txseq, ty, bs)] }
  (s.bump (figFoda 5 ty p)).leaves (.sent s.red.active p (portFrame ty true x.txseq bs))

/-- An unsequenced frame leaves on a copy in UP; one of a copy that is down goes (R315). -/
def State.leavesCopy (s : State) (ty : Nat) (quiet : Bool) (bs : List Byte) (h : Hub) (p : Nat) : State :=
  if s.copyOpen h p quiet then (s.bump (figFoda 5 ty p)).leaves (.sent h p (portFrame ty (h == s.red.active) 0 bs)) else s

/-- One output at a step boundary: it leaves, waits, or, an unsequenced word of a port that is down, goes (R315). -/
def State.releaseOne (s : State) (x : Nat × Out) : State :=
  if !s.released x.1 then s.keeps x
  else
    match x.2 with
    | .msix h v =>
      if !(s.ep h).mayInterrupt v then s.holdMessage h v else if s.pcieOpen x.1 then s.leavesPcie x else s.keeps x
    | .write .. | .data .. | .readReq .. => if s.pcieOpen x.1 then s.leavesPcie x else s.keeps x
    | .frame p ty bs =>
      if s.copyOpen s.red.active p && !(s.port p).paused && (s.port p).unacked.all (fun u => decide (x.1 < u.1 + 8)) then
        s.leavesFrame x.1 p ty bs
      else s.keeps x
    | .ctrl copy p sub arg =>
      let hs := match copy with
        | some h => [h]
        | none => [.a, .b]
      hs.foldl (fun s h => s.leavesCopy 4 (sub == 4) (leBytes 8 (sub * 2 ^ 56 + arg)) h p) s
    | .time p bs => s.leavesCopy 3 false bs s.red.active p
    | _ => s.leaves x.2

/-- The outputs due leave in their order. -/
def State.releaseOutputs (s : State) : State :=
  let q := s.pcie.outQ
  q.foldl State.releaseOne { s with pcie := { s.pcie with outQ := [] } }

/-- Cycles with STALL set, per data ring (R296). -/
def State.countStalls (s : State) : State :=
  (List.range 8).foldl (fun s k => if (s.dring k).stall then s.bump (figPcie 6 0 k) 256 else s) s

/-! ### STEP_BOUNDARY -/

/-- The hub engines at a step boundary, once the gates have delivered. -/
def State.enginesAtStep (s : State) : State :=
  let s := s.gleanersAtStep.applyTables s.core.tableDue.length
  let s := (s.jobStarts.updateBusy).portsAtStep
  s.checkCounts.countStalls.chooseMaster.relayMail

/-- STEP_BOUNDARY (R353): the next step begins, at a tick of the slice in progress. -/
def State.stepBoundary (s : State) (tick : BitVec 12) : State :=
  if !s.coreRuns then s
  else
    let s := s.ownDigest
    let s : State := { s with clock := { s.clock with step := s.clock.step + 1, tick := if s.clock.tick < tick then tick else s.clock.tick } }
    let s := ((s.gateMiss .a).gateMiss .b).judgement
    let s := s.startLockstep.restartHay.deliverGates
    s.enginesAtStep.releaseOutputs

/-! ### Meanings -/

def execStepBoundary (tick : BitVec 12) (s : State) : Host.Outcome State Fault Refusal := .next (s.stepBoundary tick)

end Sys2Proof.Machine
end

