-- ==== Sys2Proof/Machine/Query.lean ====
section
/-!
DEFINITION. QUERY: the result header, the figure entries of each item and the raw items (R191 to R193, and the tables of figures
R114, R142, R227, R250, R271, R296, R327, R352, R383, R410, R430, R452).
-/

namespace Sys2Proof.Machine

/-- A figure entry (R193). -/
structure Entry where
  fig   : Nat
  index : Nat
  hub   : Nat
  sat   : Bool
  value : Int
  deriving DecidableEq, Repr

/-- The 16 bytes of an entry (R193). -/
def Entry.bytes (e : Entry) : List Byte :=
  leBytes 8 (e.fig % 65536 + e.index % 65536 * 2 ^ 16 + e.hub % 4 * 2 ^ 32 + b2n e.sat * 2 ^ 34) ++ leBytes 8 (unsigned 64 e.value)

/-- FIG of a row, counted from 1, and a quantity, counted from 0 (R193). -/
def figNo (row q : Nat) : Nat := 16 * row + q

/-- Whose figures an item gives: HUB of its entries, 1 hub A, 2 hub B, 3 the node (R193). -/
abbrev Whose := Nat

def whoseHub (h : Hub) : Whose := h.idx + 1

/-- A figure with a value. -/
def fig (who : Whose) (row q index : Nat) (v : Int) : Entry := ⟨figNo row q, index, who, false, v⟩

/-- A list takes consecutive entries (R193). -/
def figs (who : Whose) (row q index : Nat) (vs : List Int) : List Entry := vs.map (fig who row q index)

/-- A counter: what the item counts for the whole node, with what it counts for the hub. -/
def State.figCount (s : State) (item : Nat) (who : Whose) (row q index : Nat) (key : Nat := index) : Entry :=
  let own := if who = 3 then 0 else s.count ⟨item, row, q, who, key⟩
  let n := min counterMax (s.count ⟨item, row, q, 0, key⟩ + own)
  ⟨figNo row q, index, who, n == counterMax, (n : Nat)⟩

/-- A figure whose value the manual does not let the model compute: a free value of the figure. -/
def State.figFree (s : State) (item : Nat) (who : Whose) (row q index : Nat) (i : Nat := 0) : Entry :=
  fig who row q index (Config.freeNat (s.free + ((⟨item, row, q, who, index⟩ : Fig).key) * 16 + i) : Nat)

/-- Free values taken by one QUERY; every figure of every item has its own. -/
def queryFree : Nat := 2 ^ 40

/-! ### Figures of each item -/

/-- Blocks of a die (R2). -/
def blocksOf (die : Nat) : List Nat := (List.range 8).map (fun b => 8 * die + b)

/-- Units that a parameter names: one, or all of n (R191). -/
def paramUnits (n p : Nat) : List Nat := if p = 0xFF then List.range n else [p]

/-- BLOCKS (R114). -/
def State.figsBlocks (s : State) (p : Nat) : List Entry :=
  let dies := paramUnits 8 p
  let blocks := dies.flatMap blocksOf
  let links := dies.flatMap (fun d => [2 * d, 2 * d + 1])
  let each := fun (row : Nat) (l : List Nat) => l.map (s.figCount 1 3 row 0 ·)
  each 1 blocks ++ each 2 blocks ++ blocks.map (fun b => fig 3 3 0 b (s.block b).mismatch) ++
    blocks.map (fun b => fig 3 4 0 b (s.block b).offline) ++ blocks.map (fun b => fig 3 4 1 b (s.block b).pairs.n) ++
    each 5 blocks ++ dies.map (fun d => fig 3 6 0 d (s.fe d).drPeak) ++ each 7 links ++ each 8 links ++
    dies.flatMap (fun d =>
      let x := s.sorter d
      [fig 3 9 0 d (b2n x.fenced), fig 3 9 1 d x.fenceEp.toNat, fig 3 9 2 d x.fenceSl.toNat])

/-- INGRESS (R142). -/
def State.figsIngress (s : State) (h : Hub) : List Entry :=
  let who := whoseHub h
  let c := s.core
  let regions := fun (row q : Nat) => (List.range 8).map (s.figCount 2 who row q ·)
  regions 1 0 ++ regions 1 1 ++ regions 1 2 ++ regions 2 0 ++ regions 2 1 ++
    [fig who 3 0 whole c.lowPages, fig who 3 1 whole c.lowOut] ++ (List.range 3).map (fun q => s.figCount 2 who 4 q whole) ++
    (List.range 128).map (fun g => fig who 5 0 g (b2n (s.gleaner g).fenced)) ++
    (List.range 4).map (fun q => fig who 5 1 q (b2n (c.quarters.getLsbD q))) ++
    [s.figCount 2 who 6 0 whole, s.figFree 2 who 7 0 whole]

/-- Lag of a hub's scrub pass in seconds (R217, R227): how much longer it has taken than its rate gives the lines it has read.
DESIGN CHOICE: in whole seconds, by evaluations of 100 µs, rounded down (log 143). -/
def State.scrubLag (s : State) (h : Hub) : Nat :=
  let x := s.ring.scrubOf h
  (s.clock.evals - x.since - x.rate * 10000 * x.next / s.ring.lineCount) / 10000

/-- MEMORY (R227). -/
def State.figsMemory (s : State) (h : Hub) : List Entry :=
  let who := whoseHub h
  let r := s.ring
  let areas := fun (row : Nat) => (List.range 5).map (fun q => s.figCount 3 who row q whole)
  let newest := match r.newest with
    | some n => fig who 1 5 whole (n : Nat)
    | none => s.figFree 3 who 1 5 whole
  [fig who 1 0 whole r.size, fig who 1 1 whole r.w, fig who 1 2 whole r.p.toNat, fig who 1 3 whole r.d.toNat,
    fig who 1 4 whole r.q0, newest, fig who 1 6 whole r.defaultDepth, fig who 1 7 whole r.gdepth] ++
    areas 2 ++ areas 3 ++ [s.figCount 3 who 4 0 whole, s.figCount 3 who 5 0 whole] ++
    (List.range 8).flatMap (fun q => (List.range 10).map (fun i => s.figCount 3 who 6 q (i + 1))) ++
    [fig who 7 0 whole (r.scrubOf h).passes, fig who 7 1 whole (s.scrubLag h)] ++ (List.range 3).map (fun q => s.figCount 3 who 8 q whole) ++
    [s.figCount 3 who 9 0 whole]

/-- TRIGGER (R250). -/
def State.figsTrigger (s : State) (h : Hub) : List Entry :=
  let who := whoseHub h
  let m := s.trig.tcmd
  let use_ : Nat := match m.inUse with
    | some i => i
    | none => 2
  (List.range 16).map (s.figCount 4 who 1 0 ·) ++ (List.range 4).map (fun q => s.figCount 4 who 2 q whole) ++
    (List.range 4).map (fun q => s.figCount 4 who 3 q whole) ++ (List.range 2).map (fun q => s.figCount 4 who 4 q whole) ++
    [fig who 5 0 whole use_, fig who 5 1 whole (b2n m.pair0.locked + 2 * b2n m.pair1.locked), s.figCount 4 who 5 2 whole,
      s.figCount 4 who 5 3 whole, fig who 6 0 whole s.trig.margin]

/-- State of a baler: idle, claimed or failed (R271). -/
def State.balerState (s : State) (b : Nat) : Nat :=
  Config.openCode 1 (if (s.baler b).failed then 2 else if s.balerClaimed b then 1 else 0)

/-- BALERS (R271); what no single baler counts stands under index 0xFFFF. -/
def State.figsBalers (s : State) (p : Nat) (h : Hub) : List Entry :=
  let who := whoseHub h
  let units := paramUnits 4 p
  let all := if p = 0xFF then units ++ [whole] else units
  (List.range 6).flatMap (fun q => all.map (s.figCount 5 who 1 q ·)) ++
    units.map (fun b => fig who 2 0 b (s.baler b).inBytes) ++ units.map (fun b => fig who 2 1 b (s.baler b).outBytes) ++
    units.map (s.figCount 5 who 3 0 ·) ++ [s.figCount 5 who 4 0 whole, s.figCount 5 who 6 0 whole] ++
    units.map (fun b => fig who 5 0 b (s.balerState b))

/-- PCIE (R296). -/
def State.figsPcie (s : State) (h : Hub) : List Entry :=
  let who := whoseHub h
  let e := s.ep h
  let rings := fun (row q : Nat) => (List.range 8).map (s.figCount 6 who row q ·)
  [fig who 1 0 whole e.speed, fig who 1 1 whole e.width, s.figFree 6 who 1 2 whole, s.figFree 6 who 1 3 whole,
    fig who 2 0 whole s.pcie.peak] ++ (List.range 4).map (fun q => s.figCount 6 who 3 q whole) ++
    rings 4 0 ++ rings 4 1 ++ rings 4 2 ++ [s.figCount 6 who 5 0 7 whole] ++ rings 6 0

/-- Codes of port states: the TSTATE of R306 where it has one. -/
def PortState.num : PortState → Nat
  | .detect => 1 | .link => 2 | .eq => 3 | .align => 4 | .wake => 5 | .up => 6
  | .off => Config.openCode 0 0 | .backoff => Config.openCode 0 1

/-- FODAFORT (R327). -/
def State.figsFoda (s : State) (p : Nat) (h : Hub) : List Entry :=
  let who := whoseHub h
  let ports := paramUnits 4 p
  let lanes := ports.flatMap (fun p => (List.range 4).map (fun k => (p, k)))
  let no := fun (x : Nat × Nat) => 16 * h.idx + 4 * x.1 + x.2
  let copy := fun (p : Nat) => (s.port p).copy h
  let lane := fun (x : Nat × Nat) => Tbl.get Lane.init (copy x.1).lanes x.2
  let each := fun (row q : Nat) => ports.map (s.figCount 7 who row q ·)
  lanes.map (fun x => fig who 1 0 (no x) (copy x.1).st.num) ++ lanes.map (fun x => fig who 1 1 (no x) (copy x.1).rate) ++
    lanes.flatMap (fun x => figs who 1 2 (no x) [(lane x).pre, (lane x).post, (lane x).amp]) ++
    lanes.map (fun x => s.figFree 7 who 1 3 (no x)) ++
    lanes.flatMap (fun x => (List.range 12).map (s.figFree 7 who 1 4 (no x) ·)) ++
    lanes.flatMap (fun x => figs who 2 0 (no x) ([0, 1, 2].map (s.laneFig (no x)))) ++
    lanes.flatMap (fun x => figs who 2 1 (no x) ([3, 4, 5].map (s.laneFig (no x)))) ++
    lanes.map (fun x => fig who 3 0 (no x) (s.laneFig (no x) 6)) ++ lanes.map (fun x => fig who 3 1 (no x) (s.laneFig (no x) 7)) ++
    lanes.map (fun x => s.figCount 7 who 3 2 (no x)) ++ each 4 0 ++
    ports.map (fun p => fig who 4 1 p (if (copy p).st = .backoff then (copy p).wait else 0)) ++
    ports.map (fun p => fig who 4 2 p (copy p).partner.toNat) ++
    ports.map (fun p => fig who 4 3 p (copy p).partnerRole.toNat) ++ (List.range 12).flatMap (each 5) ++
    (List.range 3).flatMap (each 6) ++ (List.range 3).flatMap (each 7) ++
    (List.range 5).map (fun q => s.figCount 7 who 8 q whole)

/-- The schedule of a generator in the layout of its block (R346). -/
def ToutGen.words (g : ToutGen) : List Int :=
  let ns := g.start.toNat / 65536
  [(ns / 1000000000 : Nat), (ns % 1000000000 + g.start.toNat % 65536 * 2 ^ 32 : Nat),
    (g.period / 65536 + g.period % 65536 * 2 ^ 40 : Nat),
    (g.width + b2n g.pin * 2 ^ 16 + b2n g.pol * 2 ^ 17 + b2n g.evt * 2 ^ 18 + b2n g.en * 2 ^ 19 + g.count * 2 ^ 32 : Nat)]

/-- A target as WAIT compares node time (R189, R193). -/
def ToutGen.targetWait (g : ToutGen) : Nat := let t := g.target g.next; wait64 (t / nsPerSec) (t % nsPerSec)

/-- An exchange (R342): t1 to t4, offset and delay. -/
def Exchange.figs (x : Exchange) : List Int :=
  [x.t1, x.t2, x.t3, x.t4, x.offset, x.delay]

/-- TIME (R352), at the step in progress. -/
def State.figsTime (s : State) (h : Hub) : List Entry :=
  let who := whoseHub h
  let t := s.nodeNow
  let ports := List.range 4
  let tup : Int := match s.time.win with
    | some w => (tupleOf w : Nat)
    | none => ((2 ^ 32 - 1 : Nat) : Int)
  let each := fun (row q : Nat) => ports.map (s.figCount 8 who row q ·)
  figs who 1 0 whole [(bitsAt (t.2 / 2 ^ 16) 0 48 + t.1 % 65536 * 2 ^ 48 : Nat), (t.1 / 65536 : Nat)] ++
    [fig who 1 1 whole s.clock.epoch.toNat, fig who 1 2 whole (s.clock.slice.toNat * 4096 + s.clock.tick.toNat : Nat), fig who 2 0 whole s.time.incr,
      s.figCount 8 who 2 1 whole] ++ figs who 2 2 whole ([s.time.w0, s.time.w1, s.time.w2].map (fun w => (w.toNat : Int))) ++
    [fig who 3 0 whole tup, fig who 3 1 whole (s.time.slave.getD 0xFF : Nat), fig who 3 2 whole (b2n s.time.slave.isNone)] ++
    ports.flatMap (fun p => figs who 4 0 p ((s.port p).last.flatMap Exchange.figs)) ++ each 4 1 ++ each 4 2 ++ each 5 0 ++
    each 5 1 ++ each 5 2 ++ ports.flatMap (fun k => figs who 6 0 k (s.gen k).words) ++
    ports.map (fun k => fig who 6 1 k (s.gen k).targetWait) ++ ports.map (fun k => fig who 6 2 k (s.gen k).made) ++
    each 6 3 ++ each 6 4 ++ [fig who 7 0 whole s.time.miss]

/-- Role codes (R485). -/
def Role.num : Role → Nat
  | .active => 0 | .eligible => 1 | .warming => 2 | .joining => 3 | .faulty => 4 | .simplex => 5

/-- Paths as bits: ports 0 to 3 and, bit 4, the PCIe endpoint. -/
def pathBits (l : List Nat) : Nat := l.foldl (fun n p => n ||| 2 ^ p) 0

/-- Paths of a hub that have been wired (R362). -/
def State.pathsWired (s : State) (h : Hub) : List Nat :=
  (if (s.ep h).wired then [4] else []) ++ (List.range 4).filter (fun p => ((s.port p).copy h).wired)

/-- FIFOs of R382, by code, and the SRAM words read by the gleaners. -/
def fifoCodes : List Nat := List.range 24 ++ [0x100]

/-- REDUND (R383). -/
def State.figsRedund (s : State) (h : Hub) : List Entry :=
  let who := whoseHub h
  let x := s.hubRed h
  let gates := List.range 10
  [fig who 1 0 whole x.role.num, fig who 1 1 whole (x.joinSeq.getD 0 : Nat), fig who 1 2 whole (pathBits (s.pathsWired h)),
    fig who 1 3 whole (pathBits (s.pathsUp h)), fig who 2 0 whole s.red.switches, fig who 2 1 whole s.red.lastSwitch,
    fig who 2 2 whole s.red.lastCause, s.figCount 9 who 3 0 whole, s.figCount 9 who 3 1 whole] ++
    (List.range 17).map (s.figCount 9 who 3 2 ·) ++
    [fig who 4 0 whole x.attempts, fig who 4 1 whole (s.recentFails h).length, fig who 4 2 whole x.failPhase] ++
    gates.map (s.figCount 9 who 5 0 ·) ++ [s.figCount 9 who 5 1 whole] ++ gates.map (s.figCount 9 who 5 2 ·) ++
    [s.figCount 9 who 6 0 whole, s.figCount 9 who 6 1 whole, s.figFree 9 who 6 2 whole] ++
    fifoCodes.map (s.figCount 9 who 7 0 ·) ++ fifoCodes.map (s.figCount 9 who 7 1 ·)

/-- A temperature in quarter degrees as a figure, 1/64 °C (R193). -/
def tempFig (q : Int) : Int := 16 * q

def Thermal.levelOf (t : Thermal) : Hub → Nat
  | .a => t.levelA
  | .b => t.levelB

def State.loop420 (s : State) : Hub → Loop420
  | .a => s.loopA
  | .b => s.loopB

/-- Values that Hayward read (R452), each with the node time of the reading: rows 7 to 14. -/
def State.figsHayward (s : State) (who : Whose) : List Entry :=
  s.hay.values.flatMap (fun x => figs who (6 + x.1 / 4096) 0 (x.1 % 4096) [x.2.1, (x.2.2 : Nat)])

/-- ENVIRON (R410, R452). -/
def State.figsEnviron (s : State) (h : Hub) : List Entry :=
  let who := whoseHub h
  let t := s.thermal
  let m := s.mon
  let view := viewOf h
  let sens := view.flatMap (fun d => (List.range 4).map (fun k => 4 * d + k))
  let temp := fun (q i : Nat) (v : Option Int) => match v with
    | some x => fig who 1 q i (tempFig x)
    | none => s.figFree 10 who 1 q i
  let entries := List.range 72
  let rec_ : List Int := match t.record with
    | some r => [(r.1 : Int), (r.2.1.toNat : Int)] ++ r.2.2.map tempFig
    | none => []
  sens.map (fun i => temp 0 i (Tbl.get none t.read i)) ++ view.map (fun d => temp 1 d (t.voted d)) ++
    [fig who 1 2 whole t.faulty.toNat, fig who 2 0 whole (b2n (t.alarm h)), fig who 2 1 whole (t.levelOf h)] ++
    (List.range 4).map (fun k => fig who 2 2 k ((Tbl.get 0 t.atLevel k : Nat) : Int)) ++
    [fig who 3 0 whole (b2n (s.red.drive == some h)), fig who 3 1 whole (b2n m.excOpen), fig who 3 2 whole m.mismatch,
      fig who 3 3 whole m.offline, s.figCount 10 who 4 0 whole, s.figCount 10 who 4 1 whole] ++
    (List.range 16).map (s.figCount 10 who 4 2 ·) ++ (List.range 16).map (s.figCount 10 who 4 3 ·) ++
    entries.map (s.figCount 10 who 4 4 ·) ++
    [fig who 5 0 h.idx (s.loop420 h).set_, fig who 5 1 h.idx (s.loop420 h).meas, s.figCount 10 who 5 2 h.idx,
      s.figCount 10 who 5 3 h.idx] ++ figs who 6 0 whole rec_ ++ [fig who 6 1 whole s.recentTrips.length] ++ s.figsHayward who

/-- State of a loop: disabled, starting, running, faulted by cause, off by derating or by LAMPNTC (R430). -/
def LoopSt.stateNo (l : LoopSt) : Nat :=
  Config.openCode 2 (match l.fault with
  | some .follow => 3
  | some .fbloss => 4
  | some .frozen => 5
  | none => if !l.en then 0 else if l.offHot then 6 else if l.offNtc then 7 else if l.starting then 1 else 2)

/-- LOOPS (R430). -/
def State.figsLoops (s : State) (p : Nat) : List Entry :=
  let units := paramUnits 8 p
  let each := fun (row q : Nat) (f : LoopSt → Int) => units.map (fun n => fig 3 row q n (f (s.loop n)))
  let counts := fun (q : Nat) => units.map (s.figCount 11 3 3 q ·)
  each 1 0 (fun l => l.stateNo) ++ each 2 0 (·.last) ++ each 2 1 (·.ramp) ++ each 2 2 (·.setpt) ++ each 2 3 (·.trim) ++
    each 2 4 (·.centre) ++ each 2 5 (fun l => (if l.dutyAll = 0 then 0 else l.dutyOn * 2 ^ 32 / l.dutyAll : Nat)) ++
    each 2 6 (fun l => l.scale) ++ counts 0 ++ counts 1 ++ counts 2 ++ each 3 3 (fun l => l.follow) ++
    each 3 4 (fun l => l.frozen) ++ counts 5 ++ each 3 6 (fun l => (l.lastCycles / 2 : Nat))

/-- Skew fit residual of a channel, as the last run that fitted it published it (R83). -/
def State.skewResid (s : State) (ch : Nat) : Nat :=
  ((List.range 8).map (fun u => Tbl.get 0 (s.tally u).resid ch)).foldl max 0

/-- Lanes of R304. -/
def laneCount : Nat := 96

/-- CALQ for a region or for the lanes (R193). -/
def State.figsCalq (s : State) (p : Nat) : List Entry :=
  if p < 8 then
    let chs := (List.range 512).map (fun k => 512 * p + k)
    chs.map (fun c => fig 3 1 0 c (s.tdc c).resid) ++ chs.map (fun c => fig 3 1 1 c (b2n (!(s.tdc c).seed))) ++
      chs.map (fun c => fig 3 1 2 c (s.tdc c).rebuilds) ++ chs.map (fun c => fig 3 2 0 c (s.skewResid c)) ++
      (blocksOf p).map (fun b => fig 3 3 0 b (s.block b).mismatch)
  else
    let lanes := List.range laneCount
    let who := fun (l : Nat) => if l < 32 then l / 16 + 1 else (l - 32) % 8 / 4 + 1
    let least := fun (l : Nat) (ks : List Nat) => ks.foldl (fun m k => min m (s.laneFig l k)) (s.laneFig l (ks.headD 0))
    lanes.map (fun l => fig (who l) 4 0 l (least l [0, 1, 2])) ++ lanes.map (fun l => fig (who l) 4 1 l (least l [3, 4, 5])) ++
      lanes.map (fun l => fig (who l) 4 2 l (s.laneFig l 6)) ++ lanes.map (fun l => fig (who l) 4 3 l (s.laneFig l 7))

/-! ### Raw items (R191) -/

/-- TABLE: the table in force with its patches; no bytes for a table that the program does not hold. -/
def State.rawTable (s : State) (id : Nat) : List Byte :=
  match s.node.prog with
  | none => []
  | some p => bytesAt (s.table id) 0 (Tbl.get 0 p.sizes id)

/-- TDCMAP: the active maps of a die (R60, R177). -/
def State.rawMaps (s : State) (die : Nat) : List Byte :=
  (List.range 512).flatMap (fun c =>
    let m := (s.tdc (512 * die + c)).active
    (List.range 512).flatMap (fun k => leBytes 2 (centreOf m k)))

/-- A set-up in the command layout (R186, R188, R191): CLASS and SUB, ARG0 at [63:32], ARG1; TAG 0 (DEDUCED, log 144). -/
def TallySetup.bytes (x : TallySetup) (unit : Nat) : List Byte :=
  if x.diff then
    leBytes 4 (clTime + 4 * 256) ++ leBytes 4 (unit * 2 ^ 29 + x.chan * 2 ^ 17 + x.evt * 2 ^ 15 + x.target * 2 ^ 13) ++
      leBytes 8 (unsigned 24 x.dly * 2 ^ 40 + x.win * 2 ^ 30 + x.k * 2 ^ 14)
  else
    leBytes 4 (clTime + 3 * 256) ++ leBytes 4 (unit * 2 ^ 29 + x.src * 2 ^ 26 + x.chan * 2 ^ 14) ++
      leBytes 8 (x.pnom * 2 ^ 24 + x.gate * 2 ^ 10 + b2n x.cont * 2 ^ 9 + b2n x.slope * 2 ^ 8 + x.thr)

/-- TALLY: the last result, then the set-up; a free value where the unit has none. -/
def State.rawTally (s : State) (u : Nat) : List Byte :=
  let t := s.tally u
  let free := fun (i : Nat) => leBytes 16 (Config.freeNat (s.free + i))
  (match t.result with
    | some r => leBytes 16 r.toNat
    | none => free 0) ++
  (match t.setup with
    | some x => x.bytes u
    | none => free 1)

/-- TYPE, INDEX and USER of a claim as the manifest orders them (R172). -/
def Claim.head (c : Claim) : Nat := c.type * 2 ^ 16 + c.index * 2 ^ 8 + c.user

/-- SETTINGS (R191): four words, then four words with one byte for each run-time claim. The manual does not say how a claim goes
into one byte: that code is left open (log 144). -/
def State.rawSettings (s : State) : List Byte :=
  let claims := s.node.rtClaims.map (fun c => BitVec.ofNat 8 (Config.openCode 5 c.head))
  [s.trig.mask.toNat, s.ring.gdepth, s.nodeWord, s.pcie.select.toNat].flatMap (leBytes 8) ++ (claims ++ List.replicate 32 0).take 32

/-! ### The result (R192) and the clearing of counters -/

/-- The header of a result (R192). -/
def State.queryHead (s : State) (sub param form hubs count : Nat) : List Byte :=
  let t := s.nodeNow
  leBytes 4 (sub + param * 2 ^ 8 + form * 2 ^ 16 + hubs * 2 ^ 17) ++ leBytes 4 count ++ leBytes 8 (t.1 % 2 ^ 48) ++
    leBytes 4 (t.2 / 2 ^ 32) ++ leBytes 4 (t.2 / 2 ^ 16 % 65536) ++ leBytes 8 s.clock.step ++ leBytes 32 0

/-- Units of 64 bytes that hold some bytes (R197). -/
def units64 (n : Nat) : Nat := (n + 63) / 64

/-- The result goes to host memory, or the buffer is too small and nothing is written (R192, R197). -/
def State.queryResult (s : State) (src : Src) (w : Nat) (bs : List Byte) : State :=
  let n := units64 bs.length
  if bitsAt (cmdArg0 w) 0 24 < n then s.complete src .nospace n
  else (s.toHost (cmdArg1 w) bs).complete src .ok n

/-- Drop the counters of an item at the indices read. -/
def State.clearCounters (s : State) (item : Nat) (read : Fig → Bool) : State :=
  { s with counters := s.counters.filter (fun p =>
      !(p.1 / 2 ^ 28 == item &&
        read ⟨item, p.1 / 2 ^ 22 % 64, p.1 / 2 ^ 18 % 16, p.1 / 2 ^ 16 % 4, p.1 % 65536⟩)) }

/-- Free values are used up by a QUERY. -/
def State.spendFree (s : State) : State := { s with free := s.free + queryFree }

/-- Hubs whose figures HUBS shows (R192). -/
def State.hubsShown (s : State) : Nat := (s.hayHubs.map whoseHub).foldl (· ||| ·) 0

/-- A QUERY of figures: `es` are the entries, `clear` clears what the QUERY clears. -/
def State.queryFigures (s : State) (src : Src) (sub : Nat) (hubs : Nat) (es : Nat → State → List Entry)
    (clear : Nat → State → State) : State :=
  s.command src clQuery sub (fun w =>
    let p := bitsAt (cmdArg0 w) 24 8
    let l := es p s
    let bs := s.queryHead sub p 0 hubs l.length ++ l.flatMap Entry.bytes
    ((clear p s).spendFree).queryResult src w bs)

/-- A QUERY of raw bytes. -/
def State.queryRaw (s : State) (src : Src) (sub : Nat) (raw : Nat → State → List Byte) : State :=
  s.command src clQuery sub (fun w =>
    let p := bitsAt (cmdArg0 w) 24 8
    let l := raw p s
    s.spendFree.queryResult src w (s.queryHead sub p 1 0 l.length ++ l))

/-- Entries for each hub whose figures are given (R192), hub A's first. -/
def State.perHub (s : State) (f : Hub → List Entry) : List Entry :=
  ([Hub.a, .b].filter (fun h => s.hayHubs.contains h)).flatMap f

/-! ### The items -/

def State.queryBlocks (s : State) (src : Src) : State :=
  s.queryFigures src 1 0 (fun p s => s.figsBlocks p) (fun p s =>
    let mine := fun (d : Nat) => p == 0xFF || d == p
    let s := s.clearCounters 1 (fun f => mine (if f.row = 7 ∨ f.row = 8 then f.idx / 2 else f.idx / 8))
    (paramUnits 8 p).foldl (fun s d => s.modFe d (fun f => { f with drPeak := f.dr.length })) s)

def State.queryIngress (s : State) (src : Src) : State :=
  s.queryFigures src 2 s.hubsShown (fun _ s => s.perHub s.figsIngress) (fun _ s =>
    let s := s.clearCounters 2 (fun _ => true)
    let s := (List.range 8).foldl (fun s r => s.peak (figIngress 2 r) (s.ingress r).length) s
    s.modCore (fun c => { c with lowPages := c.freePages.length, lowOut := outPagesTotal - c.usedOut }))

def State.queryMemory (s : State) (src : Src) : State :=
  s.queryFigures src 3 s.hubsShown (fun _ s => s.perHub s.figsMemory) (fun _ s => s.clearCounters 3 (fun _ => true))

def State.queryTrigger (s : State) (src : Src) : State :=
  s.queryFigures src 4 s.hubsShown (fun _ s => s.perHub s.figsTrigger) (fun _ s =>
    let s := s.clearCounters 4 (fun _ => true)
    (s.peak (figTrig 4 0) s.trig.queue.length).peak (figTrig 4 1) s.stagingUse)

def State.queryBalers (s : State) (src : Src) : State :=
  s.queryFigures src 5 s.hubsShown (fun p s => s.perHub (s.figsBalers p)) (fun p s =>
    s.clearCounters 5 (fun f => p == 0xFF || f.idx == p || f.row == 4 || f.row == 6))

def State.queryPcie (s : State) (src : Src) : State :=
  s.queryFigures src 6 s.hubsShown (fun _ s => s.perHub s.figsPcie) (fun _ s =>
    let s := s.clearCounters 6 (fun _ => true)
    { s with pcie := { s.pcie with peak := 0 } })

def State.queryFoda (s : State) (src : Src) : State :=
  s.queryFigures src 7 s.hubsShown (fun p s => s.perHub (s.figsFoda p)) (fun p s =>
    let s := s.clearCounters 7 (fun f => p == 0xFF || f.row == 8 || (if f.row = 3 then f.idx % 16 / 4 else f.idx) == p)
    s.peak (figFoda 8 4) s.foda.area)

def State.queryTime (s : State) (src : Src) : State :=
  s.queryFigures src 8 s.hubsShown (fun _ s => s.perHub s.figsTime) (fun _ s => s.clearCounters 8 (fun _ => true))

def State.queryRedund (s : State) (src : Src) : State :=
  s.queryFigures src 9 s.hubsShown (fun _ s => s.perHub s.figsRedund) (fun _ s =>
    let s := s.clearCounters 9 (fun _ => true)
    { s with red := { s.red with
        switches := 0, hubA := { s.red.hubA with attempts := 0 }, hubB := { s.red.hubB with attempts := 0 } } })

def State.queryEnviron (s : State) (src : Src) : State :=
  s.queryFigures src 10 s.hubsShown (fun _ s => s.perHub s.figsEnviron) (fun _ s =>
    let s := s.clearCounters 10 (fun _ => true)
    { s with thermal := { s.thermal with atLevel := [] } })

def State.queryLoops (s : State) (src : Src) : State :=
  s.queryFigures src 11 0 (fun p s => s.figsLoops p) (fun p s => s.clearCounters 11 (fun f => p == 0xFF || f.idx == p))

/-- Parameter of the QUERY on a source. -/
def State.queryParam (s : State) (src : Src) : Nat :=
  match s.cmdOf src with
  | some c => bitsAt (cmdArg0 c.word.toNat) 24 8
  | none => 0

/-- CALQ (R193): a region, the lanes of both hubs, or each hub's monitor ADC. -/
def State.queryCalq (s : State) (src : Src) : State :=
  s.queryFigures src 12 (if s.queryParam src = 9 then s.hubsShown else if s.queryParam src = 8 then 3 else 0)
    (fun p s => if p = 9 then s.perHub (fun h => [fig (whoseHub h) 5 0 whole s.mon.mismatch]) else s.figsCalq p) (fun _ s => s)

/-! ### Meanings -/

def execQueryBlocks (src : Src) (s : State) : Host.Outcome State Fault Refusal := .next (s.queryBlocks src)
def execQueryIngress (src : Src) (s : State) : Host.Outcome State Fault Refusal := .next (s.queryIngress src)
def execQueryMemory (src : Src) (s : State) : Host.Outcome State Fault Refusal := .next (s.queryMemory src)
def execQueryTrigger (src : Src) (s : State) : Host.Outcome State Fault Refusal := .next (s.queryTrigger src)
def execQueryBalers (src : Src) (s : State) : Host.Outcome State Fault Refusal := .next (s.queryBalers src)
def execQueryPcie (src : Src) (s : State) : Host.Outcome State Fault Refusal := .next (s.queryPcie src)
def execQueryFodafort (src : Src) (s : State) : Host.Outcome State Fault Refusal := .next (s.queryFoda src)
def execQueryTime (src : Src) (s : State) : Host.Outcome State Fault Refusal := .next (s.queryTime src)
def execQueryRedund (src : Src) (s : State) : Host.Outcome State Fault Refusal := .next (s.queryRedund src)
def execQueryEnviron (src : Src) (s : State) : Host.Outcome State Fault Refusal := .next (s.queryEnviron src)
def execQueryLoops (src : Src) (s : State) : Host.Outcome State Fault Refusal := .next (s.queryLoops src)
def execQueryCalq (src : Src) (s : State) : Host.Outcome State Fault Refusal := .next (s.queryCalq src)

def execQueryTable (src : Src) (s : State) : Host.Outcome State Fault Refusal :=
  .next (s.queryRaw src 13 (fun p s => s.rawTable p))

def execQueryTdcmap (src : Src) (s : State) : Host.Outcome State Fault Refusal :=
  .next (s.queryRaw src 14 (fun p s => s.rawMaps p))

def execQueryTally (src : Src) (s : State) : Host.Outcome State Fault Refusal :=
  .next (s.queryRaw src 15 (fun p s => s.rawTally p))

def execQuerySettings (src : Src) (s : State) : Host.Outcome State Fault Refusal :=
  .next (s.queryRaw src 16 (fun _ s => s.rawSettings))

end Sys2Proof.Machine
end

