-- ==== Sys2Proof/Machine/Bringup.lean ====
section
/-!
DEFINITION. Bring-up: the power-on reset, the ends of SEED and of the self-test, the fall of PWRGD, the restart from TRIPPED, and
the test port (R6, R23, R406, R431 to R435, R449, R463, R466, R467, R472, R475, R481).
-/

namespace Sys2Proof.Machine

/-! ### OTP words in force (R466, R467) -/

/-- Word n of the settings when no generation is committed (R467, column At SEED). -/
def otpAtSeed (n : Nat) : Nat :=
  let l := LoopSt.init
  if n = 0 then 0x1F3B * 2 ^ 32 + 0x1E0
  else if n = 8 ∨ n = 9 then loopWordAtSeed.toNat
  else if n = 10 then tsw0AtSeed.toNat
  else if 13 ≤ n ∧ n < 29 then
    match (n - 13) % 4 with
    | 0 => l.w0.toNat
    | 1 => l.w1.toNat
    | 2 => l.w2.toNat
    | _ => l.w3.toNat
  else 0

/-- Word n of the settings that a hub's OTP gives: of its highest committed generation, else the At SEED value. -/
def Store.setting (x : Store) (n : Nat) : Nat :=
  match x.genInUse with
  | some g => x.otpWord g n
  | none => otpAtSeed n

/-- Flash and OTP fitted from outside while the node was not powered; none leaves them as they were. -/
def Store.fit (x : Store) : Option Fitted → Store
  | none => x
  | some f =>
    { rec0 := none, rec1 := none, slotA := f.slotA, slotB := f.slotB, log := []
      rows := f.rows.zipIdx.foldl (fun (t : Tbl (BitVec 32)) (p : BitVec 32 × Nat) => Tbl.set 0 t p.2 p.1) [] }

/-! ### The power-on reset (R431, R432 steps 1 to 6) -/

/-- An endpoint after the reset: its PERST input stands as it is (R275), and CAUSE is recorded (R431, R485). -/
def Endpoint.reset (e : Endpoint) (cause : BitVec 2) : Endpoint := { Endpoint.init with perst := e.perst, cause := cause }

/-- Hubs that OTP lets run: hub A alone in simplex (R378, R467). -/
def hubsOf (simplex : Bool) : List Hub := if simplex then [.a] else [.a, .b]

/-- What a power-on reset clears and what it keeps: the retention bank with the trip record and the trips of the hour (R449), the
flashes and OTPs, the input pins, the test port and the history of outputs. -/
def State.cleared (s : State) (cause : BitVec 2) (refclk : Bool) : State :=
  { State.reset with
    pending := s.pending
    red := Red.init
    clock := { Clock.init with evals := s.clock.evals }
    node := { NodeCtl.init with blank := s.node.blank, jtag := s.node.jtag, refLost := !refclk }
    hay := { Hayward.init with storeA := s.hay.storeA, storeB := s.hay.storeB }
    pcie := { Pcie.init with epA := s.pcie.epA.reset cause, epB := s.pcie.epB.reset cause, out := s.pcie.out }
    thermal := { Thermal.init with trips := s.thermal.trips, record := s.thermal.record, recordNew := s.thermal.recordNew }
    loopA := { Loop420.init with meas := s.loopA.meas }
    loopB := { Loop420.init with meas := s.loopB.meas }
    free := s.free }

/-- A power-on reset with a cause (R431): SEED in ACTIVE, and bring-up up to the boot of Hayward (R463). Without REFCLK every FE
die runs on the holdover reference from the first tick (R434). -/
def State.powerOn (s : State) (cause : BitVec 2) (refclk : Bool) : State :=
  let t := s.cleared cause refclk
  let t := t.allFes (fun _ f => { f with mask := s.node.blank, hold := if refclk then none else some 0 })
  let simplex := bitAt (t.hay.storeA.setting 0) 15
  let t := t.setEp .b { t.ep .b with off := simplex }
  t.hayDown.bootCode (hubsOf simplex)

/-! ### The end of SEED (R432 step 6) -/

/-- Hubs whose Hayward runs. -/
def State.aliveHubs (s : State) : List Hub := (hubsOf s.node.simplex).filter (fun h => !(s.hubRed h).dead)

/-- Resources that OTP defaults name, in the order of R23: thermal protection, time service, LED drive. -/
def otpNeeds (w0 w1 : Nat) : List Claim :=
  let thm : List Claim := if bitAt w0 3 then [⟨resMf, bitsAt w1 60 4, 0, 0⟩] else []
  let tally : List Claim := if bitAt w0 7 && bitAt w0 6 then [⟨resTally, 7, userTime, 0⟩] else []
  let touts := if bitAt w0 7 then (List.range 4).filter (fun k => bitAt w1 (56 + k)) else []
  let leds := if bitAt w0 4 then (List.range 4).filter (fun n => bitAt w1 (52 + n)) else []
  thm ++ tally ++ touts.map (fun k => (⟨resTout, k, userTime, 0⟩ : Claim)) ++ leds.map (fun n => (⟨resLed, n, userLed, 0⟩ : Claim))

/-- A default takes its resource, or a CONFLICT is raised where a default ranked higher holds it (R23). -/
def State.takeDefault (s : State) (c : Claim) : State :=
  if s.node.otpClaims.any (fun x => decide (x.type = c.type) && decide (x.index = c.index)) then s.post .conflict []
  else { s with node := { s.node with otpClaims := s.node.otpClaims ++ [c] } }

/-- The frequency run of tally unit 7 on REFCLK: gates of 1 ms against XTAL, back to back (R71). -/
def refSetup : TallySetup :=
  { diff := false, src := 0, chan := 0, pnom := 3840, gate := 1, cont := true, slope := false, thr := 0, evt := 0, dly := 0
    win := 0, k := 0, target := 0 }

/-- Words of loop n in OTP, W4 at its At SEED value (R467). -/
def Store.ledLoop (x : Store) (n : Nat) : LoopSt :=
  let w := fun i => BitVec.ofNat 64 (x.setting (13 + 4 * n + i))
  { LoopSt.init with w0 := w 0, w1 := w 1, w2 := w 2, w3 := w 3 }

/-- The settings of OTP reach the node (R23, R467). -/
def State.otpSettings (s : State) (x : Store) : State :=
  let w0 := x.setting 0
  let w1 := x.setting 1
  let w := fun n => BitVec.ofNat 64 (x.setting n)
  let s : State := { s with
    node := { s.node with
      otpRead := true
      nodeId := BitVec.ofNat 16 (bitsAt w0 48 16), ssvid := BitVec.ofNat 16 (bitsAt w0 32 16)
      ssid := BitVec.ofNat 16 (bitsAt w0 16 16), simplex := bitAt w0 15, tripOtp := bitAt w0 14, reqSig := bitAt w0 13
      maxRate := bitsAt w0 11 2, logSev := bitsAt w0 8 3, thmf := bitAt w0 3, thpin := bitsAt w1 60 4
      pkey := BitVec.ofNat 384 ((List.range 6).foldl (fun n i => n + x.setting (2 + i) * 2 ^ (64 * i)) 0) }
    time := { s.time with w0 := w 10, w1 := w 11, w2 := w 12 }
    loopA := if bitAt w0 5 then { s.loopA with word := w 8 } else s.loopA
    loopB := if bitAt w0 5 then { s.loopB with word := w 9 } else s.loopB }
  let s := (otpNeeds w0 w1).foldl State.takeDefault s
  let mine := fun (type index user : Nat) =>
    s.node.otpClaims.any (fun c => decide (c.type = type) && decide (c.index = index) && decide (c.user = user))
  let s := if mine resTally 7 userTime then s.setTally 7 ((s.tally 7).begin refSetup s.fullSlice) else s
  (List.range 4).foldl (fun s n => if mine resLed n userLed then s.setLoop n ((s.loop n).write (x.ledLoop n)) else s) s

/-- Roles of the hubs that go on: the active one, and its partner where it is left out (R376, R378, R433). -/
def State.onlyHub (s : State) (h : Hub) : State :=
  let s := if s.node.simplex then s.modHubRed h (fun x => { x with role := .simplex })
    else (s.modHubRed h (fun x => { x with role := .active })).modHubRed h.other (fun x => { x with role := .faulty })
  { s with red := { s.red with active := h, drive := some h } }

/-- The instructions that a running node refuses act as BYPASS from now on (R481). -/
def State.jtagRelease (s : State) : State :=
  { s with node := { s.node with
      jtag := Tbl.mapAll JtagOp.idcode (fun _ op => if op.drives then JtagOp.bypass else op) s.node.jtag } }

/-- SEED_END (R432 step 6, R433): the hubs that have booted leave SEED with the settings of OTP. -/
def State.endSeed (s : State) : State :=
  if !s.live || s.node.mode != .seed then s
  else
    match s.aliveHubs with
    | [] => s
    | h :: rest =>
      let x := s.hay.store h
      let y := s.hay.store h.other
      let differ := !rest.isEmpty && (List.range 32).any (fun n => x.setting n != y.setting n)
      let s := s.otpSettings x
      let s := if s.aliveHubs.length = 1 then s.onlyHub h else s
      let s := s.hayUp s.aliveHubs
      let s := if differ then s.post .otpdiff [] else s
      let s := if s.node.nodeId = 0 then s.post .nodeidunset [] else s
      let s := if s.node.refLost then s.post .reflost [] else s
      s.jtagRelease.setMode .selftest

/-! ### The end of the self-test (R432 steps 7 to 10) -/

/-- What a hub's self-test found (R198, R223): every pattern that a checker judged wrongly is logged with the checker's identity and is a
local error, and so are two densities; such a hub does not leave SELFTEST. -/
def State.judgeSelftest (s : State) (h : Hub) (r : SelftestResult) : State :=
  let s := r.failed.foldl (fun s x => (s.localErr h .chkfail).post .chkfail [(x.1, 8)] (some h)) s
  let odd := r.dev0 != r.dev1 || !(r.dev0 == 16 || r.dev0 == 24)
  let s := if odd then (s.localErr h .memcfg).post .memcfg [] (some h) else s
  if odd || !r.failed.isEmpty then s.modHubRed h (fun x => { x with dead := true }) else s

/-- The TCMD pairs that did not report TCMDNOLOCK are locked (R228); the hub decodes TCMD when it can (R230). -/
def Tcmd.trained (t : Tcmd) : Tcmd :=
  let p0 : Pair := { t.pair0 with locked := !t.pair0.unused }
  let p1 : Pair := { t.pair1 with locked := !t.pair1.unused }
  { t with pair0 := p0, pair1 := p1, inUse := if p0.locked then some 0 else if p1.locked then some 1 else none }

/-- SELFTEST_FINISHED (R198, R220, R223, R376, R432, R433, R435): the sweep has run, LOAD is accepted, and two hubs that passed
enter lockstep, hub B eligible from the start. -/
def State.endSelftest (s : State) (a b : SelftestResult) : State :=
  if !s.live || s.node.mode != .selftest || s.node.stdone || s.aliveHubs.isEmpty then s
  else
    let res := fun (h : Hub) => match h with
      | .a => a
      | .b => b
    let s := s.aliveHubs.foldl (fun s h => s.judgeSelftest h (res h)) s
    match s.aliveHubs with
    | [] => s
    | h :: rest =>
      let density := (h :: rest).foldl (fun n h => min n (res h).dev0) 24
      let s := s.setTcmd s.trig.tcmd.trained
      let s : State := { s with
        node := { s.node with stdone := true }
        ring := { Ring.init with
          density := density, swept := true, scrubA := { s.ring.scrubA with since := s.clock.evals }
          scrubB := { s.ring.scrubB with since := s.clock.evals } } }
      match rest with
      | [] => s.onlyHub h
      | _ =>
        ({ s with red := { s.red with lockstep := true, lastEq := s.clock.step } }).post .warm [] (some .b)

/-! ### The trip (R404, R405, R407) -/

/-- A trip while an OTP command runs (R407): some rows of the generation, in their order and with values that no rule states, are burned,
the MARK row never, and the slot stays consumed. -/
def State.cutBurn (s : State) : State :=
  if !srcs.any (fun x => (s.running? x clOtp 0).isSome) then s
  else
    let n := Config.freeNat s.free % 64
    let cut := fun (x : Store) =>
      if 3 < x.nextGen then x
      else { x with rows := (List.range n).foldl (fun t i =>
        Tbl.set 0 t (0x20 + 64 * x.nextGen + i) (BitVec.ofNat 32 (Config.freeNat (s.free + 1 + i)))) x.rows }
    { s.hayHubs.foldl (fun s h => s.modHay (fun y => y.setStore h (cut (y.store h)))) s with free := s.free + 64 }

/-- A trip during STAGE or COMMIT abandons the write (R407, R464): the slot or the control record being written fails its check. -/
def State.cutFlash (s : State) : State :=
  let slot := !s.hay.slot
  let one := fun (f : Store → Store) (s : State) => s.hayHubs.foldl (fun s h => s.modHay (fun y => y.setStore h (f (y.store h)))) s
  let s := s.when (srcs.any (fun x => (s.running? x clUpdate 0).isSome)) (one (fun x => x.setSlot slot []))
  s.when (srcs.any (fun x => (s.running? x clUpdate 2).isSome)) (one Store.tearControl)

/-- TRIP (R404, R405): TRIPPED is entered; outputs take their safe levels and the trip record is kept. -/
def State.tripRow (s : State) (die : Fin 10) (sensors : BitVec 4) : State :=
  if !s.live || decide (((List.range 4).filter (fun k => sensors.getLsbD k)).length < 2) then s
  else
    let trips := s.recentTrips ++ [s.clock.evals]
    let restart := s.node.tripRt.getD s.node.tripOtp && decide (trips.length < 4)
    let rec_ := (die.val, sensors, dies.map (fun d => (s.thermal.voted d).getD 0))
    let s := s.cutBurn.cutFlash.loopsSafe.frontOff
    { s with
      node := { s.node with tripped := true }
      thermal := { s.thermal with trips := trips, latch := !restart, record := some rec_, recordNew := true, cool := none }
      time := { s.time with gens := Tbl.mapAll ToutGen.init (fun _ g => { g with level := false, trail := none }) s.time.gens }
      trig := { s.trig with busy := true }
      loopA := { s.loopA with set_ := 5632 }, loopB := { s.loopB with set_ := 5632 } }

/-! ### PWRGD and TRIPPED -/

/-- PWRGD_FALL (R472, R475): writes of OTP and flash in progress are cut, every domain but the always-on one is held in reset, the balls take their states, TRIPPED ends. -/
def State.pwrgdLow (s : State) : State :=
  if !s.node.pwrgd then s
  else
    let t := s.cutBurn.cutFlash.jtagRelease.cleared 0 true
    { t with
      node := { t.node with pwrgd := false }
      trig := { t.trig with busy := false }
      thermal := { s.thermal with latch := false, cool := none }
      loopA := { t.loopA with set_ := 896 }, loopB := { t.loopB with set_ := 896 } }

/-- The level of MF pin THPIN under thermal protection (R467, R472): high while THERMALARM holds and in TRIPPED. -/
def State.thermalPin (s : State) : Option (Nat × Bool) :=
  if s.node.thmf then some (s.node.thpin, s.node.tripped || s.thermal.alarmA || s.thermal.alarmB) else none

/-! ### The test port (R481) -/

/-- IDCODE of a die: revision 2, part 0x4096 for a hub and 0x4090 for an FE die, the manufacturer, 1. -/
def idcodeOf (die : Nat) : BitVec 32 :=
  (2 : BitVec 4) ++ (if die = 0 ∨ die = 9 then (0x4096 : BitVec 16) else 0x4090) ++ Config.manufacturerId ++ (1 : BitVec 1)

/-- Both hubs are in SEED with PWRGD high, so the boundary cells may drive. -/
def State.jtagOpen (s : State) : Bool := s.live && s.node.mode == .seed

/-- JTAG_INSTRUCTION (R481): an instruction is applied, or acts as BYPASS. -/
def State.jtagRow (s : State) (die : Fin 10) (op : JtagOp) : State :=
  let op := if op.drives && !s.jtagOpen then .bypass else op
  let v : BitVec 32 := if op = .idcode then idcodeOf die else 0
  { s with
    node := { s.node with jtag := Tbl.set .idcode s.node.jtag die op }
    pcie := { s.pcie with out := s.pcie.out ++ [.tdo die v] } }

/-! ### Meanings -/

/-- POWER_ON_RESET (R431): PWRGD rises. -/
def execPowerOnReset (refclk : Bool) (fitA fitB : Option Fitted) (s : State) : Host.Outcome State Fault Refusal :=
  let s : State := { s with hay := { s.hay with storeA := s.hay.storeA.fit fitA, storeB := s.hay.storeB.fit fitB } }
  .next (s.powerOn 0 refclk)

def execSeedEnd (s : State) : Host.Outcome State Fault Refusal := .next s.endSeed

def execSelftestFinished (a b : SelftestResult) (s : State) : Host.Outcome State Fault Refusal := .next (s.endSelftest a b)

def execTrip (die : Fin 10) (sensors : BitVec 4) (s : State) : Host.Outcome State Fault Refusal :=
  .next (s.tripRow die sensors)

def execPwrgdFall (s : State) : Host.Outcome State Fault Refusal := .next s.pwrgdLow

/-- TRIPRESTART (R406, R431): the power-on reset with cause TRIPRESTART. -/
def execTripRestart (s : State) : Host.Outcome State Fault Refusal :=
  .next (s.when s.mayRestart (fun s => s.powerOn 1 (!s.node.refLost || s.node.refBack)))

def execJtagInstruction (die : Fin 10) (op : JtagOp) (s : State) : Host.Outcome State Fault Refusal :=
  .next (s.jtagRow die op)

/-- TEST_LOGIC_RESET (R481): every die goes back to the instruction of the reset test logic. -/
def execTestLogicReset (s : State) : Host.Outcome State Fault Refusal := .next { s with node := { s.node with jtag := [] } }

end Sys2Proof.Machine
end

