-- ==== Sys2Proof/Machine/Dispatch.lean ====
section
/-!
DEFINITION. What each command does: one arm for each constructor, one direct call of its meaning.
-/

namespace Sys2Proof.Machine

def exec (i : Instr) (s : State) : Host.Outcome State Fault Refusal :=
  match i with
  | .powerOnReset refclk fitA fitB => Sys2Proof.Machine.execPowerOnReset refclk fitA fitB s
  | .seedEnd => Sys2Proof.Machine.execSeedEnd s
  | .selftestFinished a b => Sys2Proof.Machine.execSelftestFinished a b s
  | .tcmdNoLock pair => Sys2Proof.Machine.execTcmdNoLock pair s
  | .pwrgdFall => Sys2Proof.Machine.execPwrgdFall s
  | .railFault die rail => Sys2Proof.Machine.execRailFault die rail s
  | .trip die sensors => Sys2Proof.Machine.execTrip die sensors s
  | .tripRestart => Sys2Proof.Machine.execTripRestart s
  | .evaluation quarters measA measB => Sys2Proof.Machine.execEvaluation quarters measA measB s
  | .loopFault h => Sys2Proof.Machine.execLoopFault h s
  | .refLost tick => Sys2Proof.Machine.execRefLost tick s
  | .refBack => Sys2Proof.Machine.execRefBack s
  | .parityReplay stage err => Sys2Proof.Machine.execParityReplay stage err s
  | .leadingEdge ch tick code pf => Sys2Proof.Machine.execLeadingEdge ch tick code pf s
  | .trailingEdge ch tick code peak pf => Sys2Proof.Machine.execTrailingEdge ch tick code peak pf s
  | .hitLengthLimit ch tick peak => Sys2Proof.Machine.execHitLengthLimit ch tick peak s
  | .rangeSwitch ch tick => Sys2Proof.Machine.execRangeSwitch ch tick s
  | .peakFoundArmed ch tick => Sys2Proof.Machine.execPeakFoundArmed ch tick s
  | .peakFound ch tick peak => Sys2Proof.Machine.execPeakFound ch tick peak s
  | .resetEnd ch tick => Sys2Proof.Machine.execResetEnd ch tick s
  | .rearm ch tick => Sys2Proof.Machine.execRearm ch tick s
  | .settleEnd ch tick => Sys2Proof.Machine.execSettleEnd ch tick s
  | .controlLaneReceive die link => Sys2Proof.Machine.execControlLaneReceive die link s
  | .sliceBoundary => Sys2Proof.Machine.execSliceBoundary s
  | .epochBoundary => Sys2Proof.Machine.execEpochBoundary s
  | .settingSweep die upsets => Sys2Proof.Machine.execSettingSweep die upsets s
  | .blankRise sample late => Sys2Proof.Machine.execBlankRise sample late s
  | .maskStart die tick => Sys2Proof.Machine.execMaskStart die tick s
  | .blankFall sample late => Sys2Proof.Machine.execBlankFall sample late s
  | .maskEnd die tick => Sys2Proof.Machine.execMaskEnd die tick s
  | .injectionStep die tick => Sys2Proof.Machine.execInjectionStep die tick s
  | .mapArrival ch seed => Sys2Proof.Machine.execMapArrival ch seed s
  | .histogramFull ch => Sys2Proof.Machine.execHistogramFull ch s
  | .rebuildDone ch => Sys2Proof.Machine.execRebuildDone ch s
  | .ditherEntry ch tick code => Sys2Proof.Machine.execDitherEntry ch tick code s
  | .ditherEnd ch tick => Sys2Proof.Machine.execDitherEnd ch tick s
  | .tinEdge pin falling cycle code => Sys2Proof.Machine.execTinEdge pin falling cycle code s
  | .tallyStamp unit stamp code => Sys2Proof.Machine.execTallyStamp unit stamp code s
  | .tallyGateOpen unit stamp => Sys2Proof.Machine.execTallyGateOpen unit stamp s
  | .tallyGateClose unit => Sys2Proof.Machine.execTallyGateClose unit s
  | .tallyResult unit tick => Sys2Proof.Machine.execTallyResult unit tick s
  | .differenceResult unit => Sys2Proof.Machine.execDifferenceResult unit s
  | .grant blk tick => Sys2Proof.Machine.execGrant blk tick s
  | .holdSlotFreed blk slice tick => Sys2Proof.Machine.execHoldSlotFreed blk slice tick s
  | .conversionComplete blk slice tick err offErr => Sys2Proof.Machine.execConversionComplete blk slice tick err offErr s
  | .referencePair blk tick offRaw => Sys2Proof.Machine.execReferencePair blk tick offRaw s
  | .rotationStep blk => Sys2Proof.Machine.execRotationStep blk s
  | .fifoRst blk tick => Sys2Proof.Machine.execFifoRst blk tick s
  | .derandomiserWrite die => Sys2Proof.Machine.execDerandomiserWrite die s
  | .sliceMarkerDue die => Sys2Proof.Machine.execSliceMarkerDue die s
  | .drRst die tick => Sys2Proof.Machine.execDrRst die tick s
  | .lagRelease die link => Sys2Proof.Machine.execLagRelease die link s
  | .frameSend die link => Sys2Proof.Machine.execFrameSend die link s
  | .alignmentMarker die link lanes seqs skew => Sys2Proof.Machine.execAlignmentMarker die link lanes seqs skew s
  | .frameReceive die link err badWords => Sys2Proof.Machine.execFrameReceive die link err badWords s
  | .ack die link seq => Sys2Proof.Machine.execAck die link seq s
  | .nak die link seq => Sys2Proof.Machine.execNak die link seq s
  | .ackTimeout die link => Sys2Proof.Machine.execAckTimeout die link s
  | .alignmentLoss die link => Sys2Proof.Machine.execAlignmentLoss die link s
  | .markerTimeout die link => Sys2Proof.Machine.execMarkerTimeout die link s
  | .retrainingDone die link => Sys2Proof.Machine.execRetrainingDone die link s
  | .retrainTimeout die link => Sys2Proof.Machine.execRetrainTimeout die link s
  | .pause die link => Sys2Proof.Machine.execPause die link s
  | .resume die link => Sys2Proof.Machine.execResume die link s
  | .stepBoundary tick => Sys2Proof.Machine.execStepBoundary tick s
  | .sheafWatchdog g => Sys2Proof.Machine.execSheafWatchdog g s
  | .sliceRelease => Sys2Proof.Machine.execSliceRelease s
  | .tableReloadDone g => Sys2Proof.Machine.execTableReloadDone g s
  | .add g => Sys2Proof.Machine.execAdd g s
  | .sub g => Sys2Proof.Machine.execSub g s
  | .and g => Sys2Proof.Machine.execAnd g s
  | .or g => Sys2Proof.Machine.execOr g s
  | .xor g => Sys2Proof.Machine.execXor g s
  | .shl g => Sys2Proof.Machine.execShl g s
  | .shr g => Sys2Proof.Machine.execShr g s
  | .sra g => Sys2Proof.Machine.execSra g s
  | .mul g => Sys2Proof.Machine.execMul g s
  | .min g => Sys2Proof.Machine.execMin g s
  | .max g => Sys2Proof.Machine.execMax g s
  | .slt g => Sys2Proof.Machine.execSlt g s
  | .sltu g => Sys2Proof.Machine.execSltu g s
  | .beq g => Sys2Proof.Machine.execBeq g s
  | .bne g => Sys2Proof.Machine.execBne g s
  | .addi g => Sys2Proof.Machine.execAddi g s
  | .andi g => Sys2Proof.Machine.execAndi g s
  | .ori g => Sys2Proof.Machine.execOri g s
  | .xori g => Sys2Proof.Machine.execXori g s
  | .shli g => Sys2Proof.Machine.execShli g s
  | .shri g => Sys2Proof.Machine.execShri g s
  | .srai g => Sys2Proof.Machine.execSrai g s
  | .ldi g => Sys2Proof.Machine.execLdi g s
  | .lhi g => Sys2Proof.Machine.execLhi g s
  | .blt g => Sys2Proof.Machine.execBlt g s
  | .bge g => Sys2Proof.Machine.execBge g s
  | .jal g => Sys2Proof.Machine.execJal g s
  | .jr g => Sys2Proof.Machine.execJr g s
  | .fex g => Sys2Proof.Machine.execFex g s
  | .fexs g => Sys2Proof.Machine.execFexs g s
  | .fins g => Sys2Proof.Machine.execFins g s
  | .wfex g => Sys2Proof.Machine.execWfex g s
  | .wfins g => Sys2Proof.Machine.execWfins g s
  | .wmov g => Sys2Proof.Machine.execWmov g s
  | .lut g pf => Sys2Proof.Machine.execLut g pf s
  | .wlut g pf => Sys2Proof.Machine.execWlut g pf s
  | .curve g pf => Sys2Proof.Machine.execCurve g pf s
  | .tadd g => Sys2Proof.Machine.execTadd g s
  | .tsub g => Sys2Proof.Machine.execTsub g s
  | .rnext g bad => Sys2Proof.Machine.execRnext g bad s
  | .rctx g bad => Sys2Proof.Machine.execRctx g bad s
  | .remit g => Sys2Proof.Machine.execRemit g s
  | .rdrop g => Sys2Proof.Machine.execRdrop g s
  | .rflag g => Sys2Proof.Machine.execRflag g s
  | .pemit g => Sys2Proof.Machine.execPemit g s
  | .ptest g => Sys2Proof.Machine.execPtest g s
  | .gain g => Sys2Proof.Machine.execGain g s
  | .take g => Sys2Proof.Machine.execTake g s
  | .done g => Sys2Proof.Machine.execDone g s
  | .sget g => Sys2Proof.Machine.execSget g s
  | .ctot g => Sys2Proof.Machine.execCtot g s
  | .ld g pf => Sys2Proof.Machine.execLd g pf s
  | .st g => Sys2Proof.Machine.execSt g s
  | .wld g pf => Sys2Proof.Machine.execWld g pf s
  | .wst g => Sys2Proof.Machine.execWst g s
  | .crc g => Sys2Proof.Machine.execCrc g s
  | .wcrc g => Sys2Proof.Machine.execWcrc g s
  | .fenceInstruction g => Sys2Proof.Machine.execFenceInstruction g s
  | .waitev g => Sys2Proof.Machine.execWaitev g s
  | .waitevTimeout g => Sys2Proof.Machine.execWaitevTimeout g s
  | .mail g => Sys2Proof.Machine.execMail g s
  | .mrecv g => Sys2Proof.Machine.execMrecv g s
  | .nopInstruction g => Sys2Proof.Machine.execNopInstruction g s
  | .nopCommand src => Sys2Proof.Machine.execNopCommand src s
  | .load src image => Sys2Proof.Machine.execLoad src image s
  | .table src block => Sys2Proof.Machine.execTable src block s
  | .mode src => Sys2Proof.Machine.execMode src s
  | .powerActive src tick => Sys2Proof.Machine.execPowerActive src tick s
  | .powerHush src => Sys2Proof.Machine.execPowerHush src s
  | .powerRest src => Sys2Proof.Machine.execPowerRest src s
  | .powerFallow src => Sys2Proof.Machine.execPowerFallow src s
  | .powerFrost src => Sys2Proof.Machine.execPowerFrost src s
  | .incr src => Sys2Proof.Machine.execIncr src s
  | .timeStep src => Sys2Proof.Machine.execTimeStep src s
  | .tout src block => Sys2Proof.Machine.execTout src block s
  | .tallyFrequency src => Sys2Proof.Machine.execTallyFrequency src s
  | .tallyDifference src => Sys2Proof.Machine.execTallyDifference src s
  | .stopTallyUnit src => Sys2Proof.Machine.execStopTallyUnit src s
  | .injectionStrobe src => Sys2Proof.Machine.execInjectionStrobe src s
  | .softwareTrigger src => Sys2Proof.Machine.execSoftwareTrigger src s
  | .flush src taken => Sys2Proof.Machine.execFlush src taken s
  | .conditionEnableMask src => Sys2Proof.Machine.execConditionEnableMask src s
  | .queryBlocks src => Sys2Proof.Machine.execQueryBlocks src s
  | .queryIngress src => Sys2Proof.Machine.execQueryIngress src s
  | .queryMemory src => Sys2Proof.Machine.execQueryMemory src s
  | .queryTrigger src => Sys2Proof.Machine.execQueryTrigger src s
  | .queryBalers src => Sys2Proof.Machine.execQueryBalers src s
  | .queryPcie src => Sys2Proof.Machine.execQueryPcie src s
  | .queryFodafort src => Sys2Proof.Machine.execQueryFodafort src s
  | .queryTime src => Sys2Proof.Machine.execQueryTime src s
  | .queryRedund src => Sys2Proof.Machine.execQueryRedund src s
  | .queryEnviron src => Sys2Proof.Machine.execQueryEnviron src s
  | .queryLoops src => Sys2Proof.Machine.execQueryLoops src s
  | .queryCalq src => Sys2Proof.Machine.execQueryCalq src s
  | .queryTable src => Sys2Proof.Machine.execQueryTable src s
  | .queryTdcmap src => Sys2Proof.Machine.execQueryTdcmap src s
  | .queryTally src => Sys2Proof.Machine.execQueryTally src s
  | .querySettings src => Sys2Proof.Machine.execQuerySettings src s
  | .ringRead src => Sys2Proof.Machine.execRingRead src s
  | .readlog src => Sys2Proof.Machine.execReadlog src s
  | .setwriteMonitor src block => Sys2Proof.Machine.execSetwriteMonitor src block s
  | .setwriteLoop src block => Sys2Proof.Machine.execSetwriteLoop src block s
  | .setwriteTimeService src block => Sys2Proof.Machine.execSetwriteTimeService src block s
  | .setwriteLoopaLoopb src block => Sys2Proof.Machine.execSetwriteLoopaLoopb src block s
  | .setwriteNodeWord src block => Sys2Proof.Machine.execSetwriteNodeWord src block s
  | .setread src => Sys2Proof.Machine.execSetread src s
  | .reply src => Sys2Proof.Machine.execReply src s
  | .monrun src => Sys2Proof.Machine.execMonrun src s
  | .stage src image failed => Sys2Proof.Machine.execStage src image failed s
  | .verify src failed => Sys2Proof.Machine.execVerify src failed s
  | .commit src failed => Sys2Proof.Machine.execCommit src failed s
  | .activate src => Sys2Proof.Machine.execActivate src s
  | .otp src block badRow => Sys2Proof.Machine.execOtp src block badRow s
  | .fenceCommand src => Sys2Proof.Machine.execFenceCommand src s
  | .waitEpoch src => Sys2Proof.Machine.execWaitEpoch src s
  | .waitNodeTime src => Sys2Proof.Machine.execWaitNodeTime src s
  | .waitEvent src => Sys2Proof.Machine.execWaitEvent src s
  | .waitTimeout src => Sys2Proof.Machine.execWaitTimeout src s
  | .startAcquisition => Sys2Proof.Machine.execStartAcquisition s
  | .stopAcquisition => Sys2Proof.Machine.execStopAcquisition s
  | .retrain => Sys2Proof.Machine.execRetrain s
  | .returnToRefclk => Sys2Proof.Machine.execReturnToRefclk s
  | .epochRestart => Sys2Proof.Machine.execEpochRestart s
  | .liftFence => Sys2Proof.Machine.execLiftFence s
  | .progevt => Sys2Proof.Machine.execProgevt s
  | .commandFetch ring word good => Sys2Proof.Machine.execCommandFetch ring word good s
  | .sqtail h ring value => Sys2Proof.Machine.execSqtail h ring value s
  | .cqhead h ring value => Sys2Proof.Machine.execCqhead h ring value s
  | .commandRingEnable h ring value => Sys2Proof.Machine.execCommandRingEnable h ring value s
  | .dataRingEnable h ring value => Sys2Proof.Machine.execDataRingEnable h ring value s
  | .dcons h ring value => Sys2Proof.Machine.execDcons h ring value s
  | .econs h ring value => Sys2Proof.Machine.execEcons h ring value s
  | .registerWrite h off value wide full => Sys2Proof.Machine.execRegisterWrite h off value wide full s
  | .causeClear h value => Sys2Proof.Machine.execCauseClear h value s
  | .seedwrRead h => Sys2Proof.Machine.execSeedwrRead h s
  | .stepLoRead h wide => Sys2Proof.Machine.execStepLoRead h wide s
  | .go h => Sys2Proof.Machine.execGo h s
  | .rd h err => Sys2Proof.Machine.execRd h err s
  | .configurationRequest h write reg value early => Sys2Proof.Machine.execConfigurationRequest h write reg value early s
  | .perst h hot => Sys2Proof.Machine.execPerst h hot s
  | .pciedown h perstFell => Sys2Proof.Machine.execPciedown h perstFell s
  | .completionTlp src bytes status ep ecrcBad => Sys2Proof.Machine.execCompletionTlp src bytes status ep ecrcBad s
  | .completionTimeout src => Sys2Proof.Machine.execCompletionTimeout src s
  | .pcieAck step => Sys2Proof.Machine.execPcieAck step s
  | .partDelivery => Sys2Proof.Machine.execPartDelivery s
  | .serviceDelivery => Sys2Proof.Machine.execServiceDelivery s
  | .imodExpiry ring => Sys2Proof.Machine.execImodExpiry ring s
  | .tcmdUnit unit tick => Sys2Proof.Machine.execTcmdUnit unit tick s
  | .tcmdsw pair unlocked => Sys2Proof.Machine.execTcmdsw pair unlocked s
  | .streamEntry => Sys2Proof.Machine.execStreamEntry s
  | .captureStart => Sys2Proof.Machine.execCaptureStart s
  | .partComplete => Sys2Proof.Machine.execPartComplete s
  | .jobEnd baler stream sound => Sys2Proof.Machine.execJobEnd baler stream sound s
  | .lineFetch h line errs => Sys2Proof.Machine.execLineFetch h line errs s
  | .mergeWrite line off bytes => Sys2Proof.Machine.execMergeWrite line off bytes s
  | .mergeEntryIdle line => Sys2Proof.Machine.execMergeEntryIdle line s
  | .scrubRead h target addr errs => Sys2Proof.Machine.execScrubRead h target addr errs s
  | .trainingWord h lane word converged => Sys2Proof.Machine.execTrainingWord h lane word converged s
  | .trainingTimeout h port => Sys2Proof.Machine.execTrainingTimeout h port s
  | .backoffExpiry h port => Sys2Proof.Machine.execBackoffExpiry h port s
  | .fodafortMarker h port lanes seqs skewPs => Sys2Proof.Machine.execFodafortMarker h port lanes seqs skewPs s
  | .wake h port => Sys2Proof.Machine.execWake h port s
  | .wakeTimeout h port => Sys2Proof.Machine.execWakeTimeout h port s
  | .dataFrame h port frame => Sys2Proof.Machine.execDataFrame h port frame s
  | .primFrame h port frame => Sys2Proof.Machine.execPrimFrame h port frame s
  | .fodafortAck h port seq => Sys2Proof.Machine.execFodafortAck h port seq s
  | .fodafortPause h port => Sys2Proof.Machine.execFodafortPause h port s
  | .fodafortResume h port => Sys2Proof.Machine.execFodafortResume h port s
  | .quiet h port => Sys2Proof.Machine.execQuiet h port s
  | .pauseExpiry port => Sys2Proof.Machine.execPauseExpiry port s
  | .mergePauseRepeat port => Sys2Proof.Machine.execMergePauseRepeat port s
  | .ffnoack port => Sys2Proof.Machine.execFfnoack port s
  | .mergeTimeout trigno epoch => Sys2Proof.Machine.execMergeTimeout trigno epoch s
  | .syncInterval macs => Sys2Proof.Machine.execSyncInterval macs s
  | .announceInterval => Sys2Proof.Machine.execAnnounceInterval s
  | .sync h port frame mac2 j skew mac3 => Sys2Proof.Machine.execSync h port frame mac2 j skew mac3 s
  | .dreq h port frame mac4 j skew => Sys2Proof.Machine.execDreq h port frame mac4 j skew s
  | .dresp h port frame => Sys2Proof.Machine.execDresp h port frame s
  | .announce h port frame => Sys2Proof.Machine.execAnnounce h port frame s
  | .exchangeTimeout port => Sys2Proof.Machine.execExchangeTimeout port s
  | .toutPulse k tick => Sys2Proof.Machine.execToutPulse k tick s
  | .toutPulseEnd k tick => Sys2Proof.Machine.execToutPulseEnd k tick s
  | .hubSilent h => Sys2Proof.Machine.execHubSilent h s
  | .stepskew h => Sys2Proof.Machine.execStepskew h s
  | .digest step crc => Sys2Proof.Machine.execDigest step crc s
  | .localError h err => Sys2Proof.Machine.execLocalError h err s
  | .replayRelease => Sys2Proof.Machine.execReplayRelease s
  | .driveHeld => Sys2Proof.Machine.execDriveHeld s
  | .stileLost silent => Sys2Proof.Machine.execStileLost silent s
  | .rejoin h failedPhase => Sys2Proof.Machine.execRejoin h failedPhase s
  | .fifoPointerMismatch h fifo lost => Sys2Proof.Machine.execFifoPointerMismatch h fifo lost s
  | .fifoResetEnd h fifo => Sys2Proof.Machine.execFifoResetEnd h fifo s
  | .regularPass => Sys2Proof.Machine.execRegularPass s
  | .monitorPhaseEnd samples offline excOpen tick => Sys2Proof.Machine.execMonitorPhaseEnd samples offline excOpen tick s
  | .injectedTrigger trig => Sys2Proof.Machine.execInjectedTrigger trig s
  | .blankPauseEnd => Sys2Proof.Machine.execBlankPauseEnd s
  | .complianceTrip which tick => Sys2Proof.Machine.execComplianceTrip which tick s
  | .lcsCrossing n lcs => Sys2Proof.Machine.execLcsCrossing n lcs s
  | .loopPeriod n lcsSum onCycles cycles over400 => Sys2Proof.Machine.execLoopPeriod n lcsSum onCycles cycles over400 s
  | .pwmPeriod n => Sys2Proof.Machine.execPwmPeriod n s
  | .pwmOnEnd n => Sys2Proof.Machine.execPwmOnEnd n s
  | .gateWindowOpen n => Sys2Proof.Machine.execGateWindowOpen n s
  | .gateWindowClose n => Sys2Proof.Machine.execGateWindowClose n s
  | .lampNtc n => Sys2Proof.Machine.execLampNtc n s
  | .event => Sys2Proof.Machine.execEvent s
  | .logBatch => Sys2Proof.Machine.execLogBatch s
  | .logSupp => Sys2Proof.Machine.execLogSupp s
  | .haywardPoll kind index value => Sys2Proof.Machine.execHaywardPoll kind index value s
  | .fwWdog => Sys2Proof.Machine.execFwWdog s
  | .flashFail h => Sys2Proof.Machine.execFlashFail h s
  | .jtagInstruction die op => Sys2Proof.Machine.execJtagInstruction die op s
  | .xtalStop => Sys2Proof.Machine.execXtalStop s
  | .clkLoss h => Sys2Proof.Machine.execClkLoss h s
  | .refreshCommand h => Sys2Proof.Machine.execRefreshCommand h s
  | .lineWriteDone line errs => Sys2Proof.Machine.execLineWriteDone line errs s
  | .pcieLinkUp h speed width => Sys2Proof.Machine.execPcieLinkUp h speed width s
  | .tcmdLock pair => Sys2Proof.Machine.execTcmdLock pair s
  | .ldgHoldEnd n lcs => Sys2Proof.Machine.execLdgHoldEnd n lcs s
  | .haywardUp => Sys2Proof.Machine.execHaywardUp s
  | .flashDone => Sys2Proof.Machine.execFlashDone s
  | .testLogicReset => Sys2Proof.Machine.execTestLogicReset s

end Sys2Proof.Machine
end

