-- ==== Sys2Proof/Machine/Registers.lean ====
section
/-!
DEFINITION. What each register of BAR0 reads (R194, R224, R225, R276 to R280, R286, R485), as a view of the state. The table has no
row for a plain register read, which changes nothing; the two reads with an effect are SEEDWR_READ and STEP_LO_READ.
-/

namespace Sys2Proof.Machine

/-- MODE, PSTATE, ROLE, STDONE, LOADED, HOLD, ALARM and THROT at 0x018 of a hub (R485). -/
def State.statusBits (s : State) (h : Hub) : Nat :=
  s.node.mode.num * 2 ^ 28 + s.node.pstate.num * 2 ^ 25 + (s.hubRed h).role.num * 2 ^ 22 + b2n s.node.stdone * 2 ^ 21 +
    b2n s.loaded * 2 ^ 20 + b2n s.node.refLost * 2 ^ 19 + b2n (s.thermal.alarm h) * 2 ^ 18 + s.thermal.level * 2 ^ 15

/-- A word of the identity and status area (R485). -/
def State.statusRead (s : State) (h : Hub) (off : Nat) : Nat :=
  let e := s.ep h
  let row := fun (n : Nat) => (Tbl.get 0 (s.hay.store h).rows n).toNat
  match off with
  | 0x000 => (match h with
      | .a => 0x4096
      | .b => 0x4097) * 2 ^ 16 + 0x1F3B
  | 0x004 => 0x0202
  | 0x008 => row 0x0C
  | 0x00C => row 0x0D
  | 0x010 => b2n s.node.otpRead * 2 ^ 31 + s.node.nodeId.toNat
  | 0x014 => s.hay.version.toNat
  | 0x018 => s.statusBits h
  | 0x01C => e.cause.toNat
  | 0x020 => unsigned 16 (((maxOf (s.thermal.view h)).map tempFig).getD 0)
  | 0x028 => s.pcie.cause.toNat
  | 0x02C => s.pcie.mask.toNat
  | 0x030 => e.seedwr.toNat
  | 0x034 => e.scratch.toNat
  | 0x038 => s.clock.step % 2 ^ 32
  | 0x03C => e.stepHi.toNat
  | _ => 0

/-- A word of a command ring control block (R194). -/
def CmdRing.read (r : CmdRing) (off : Nat) : Nat :=
  match off with
  | 0x00 => r.sqbase.toNat % 2 ^ 32
  | 0x04 => r.sqbase.toNat / 2 ^ 32
  | 0x08 => r.cqbase.toNat % 2 ^ 32
  | 0x0C => r.cqbase.toNat / 2 ^ 32
  | 0x10 => b2n r.en * 2 ^ 31 + r.vec.toNat * 2 ^ 8 + r.cqlog.toNat * 2 ^ 4 + r.sqlog.toNat
  | 0x1C => b2n r.run * 2 ^ 31 + b2n r.err * 2 ^ 30 + r.sqhead
  | _ => 0

/-- A word of a data ring control block (R280). -/
def DataRing.read (r : DataRing) (off : Nat) : Nat :=
  match off with
  | 0x00 => r.dbase.toNat % 2 ^ 32
  | 0x04 => r.dbase.toNat / 2 ^ 32
  | 0x08 => r.ebase.toNat % 2 ^ 32
  | 0x0C => r.ebase.toNat / 2 ^ 32
  | 0x10 =>
    b2n r.en * 2 ^ 31 + b2n r.compact * 2 ^ 30 + b2n r.ro * 2 ^ 29 + r.vec.toNat * 2 ^ 16 + r.elog.toNat * 2 ^ 12 +
      r.dlog.toNat * 2 ^ 8 + r.icnt.toNat
  | 0x14 => r.imod.toNat
  | 0x20 => b2n r.run * 2 ^ 31 + b2n r.err * 2 ^ 30 + b2n r.stall * 2 ^ 29 + r.etail
  | 0x24 => r.dprod.toNat
  | 0x28 => r.seqnext.toNat % 2 ^ 32
  | 0x2C => r.seqnext.toNat / 2 ^ 32
  | _ => 0

/-- A word of a hub's window (R224, R225): outside STANDBY only REJ reads other than 0. -/
def State.windowRead (s : State) (h : Hub) (off : Nat) : Nat :=
  let w := s.win h
  if !s.windowOpen then (if off = 4 then 2 ^ 28 else 0)
  else if off = 0 then w.target.toNat * 2 ^ 28 + w.lineNo.toNat
  else if off = 4 then b2n w.done * 2 ^ 31 + b2n w.err * 2 ^ 30 + b2n w.misdir * 2 ^ 29 + w.count.toNat
  else if off = 8 then b2n w.swpar
  else if 0x10 ≤ off ∧ off < 0x88 then bitsAt w.data.toNat (8 * (off - 0x10)) 32
  else if off = 0x88 then w.mark.toNat
  else if off = 0x8C then w.crc.toNat
  else if off = 0x90 then crc32c (leBytes 120 w.data.toNat ++ leBytes 4 w.mark.toNat)
  else if 0x100 ≤ off ∧ off < 0x180 then bitsAt w.read.toNat (8 * (off - 0x100)) 32
  else 0

/-- What a read of a 32-bit word of BAR0 returns through a hub's endpoint (R276, R278, R279); none where nothing is served. -/
def State.barRead (s : State) (h : Hub) (off : Nat) : Option Nat :=
  let o := off / 4 * 4
  if !s.barServed h then none
  else if o < 0x1000 then some (s.statusRead h o)
  else if s.node.mode = .seed then some 0
  else if o < 0x1080 then some ((s.cring ((o - 0x1000) / 0x20)).read ((o - 0x1000) % 0x20))
  else if 0x1100 ≤ o ∧ o < 0x1300 then some ((s.dring ((o - 0x1100) / 0x40)).read ((o - 0x1100) % 0x40))
  else if o = 0x1300 then some (s.pcie.select.toNat % 2 ^ 32)
  else if o = 0x1304 then some (s.pcie.select.toNat / 2 ^ 32)
  else if 0x2000 ≤ o ∧ o < 0x2200 then some (s.windowRead h (o - 0x2000))
  else some 0

end Sys2Proof.Machine
end

