-- ==== Sys2Proof/Safety.lean ====
section
/-!
DEFINITION. The terms that the statements use: what counts as an answer of a command, what a gleaner instruction changes, and
which states are sound.
-/

namespace Sys2Proof.Machine

/-- A command answers a next state, and the next state has a property. -/
def Answers (i : Sys2Proof.Instr) (s : State) (P : State → Prop) : Prop := ∃ t, exec i s = .next t ∧ P t

/-- Every byte memory of the gleaners and of the tables is in its canonical form (R146, R174). -/
def State.MemoryWf (s : State) : Prop :=
  Tbl.wf 0 s.gmem.bytes = true ∧ Tbl.wf false s.gmem.tags = true ∧ ∀ id, Tbl.wf 0 (s.table id) = true

/-- How an instruction of a gleaner is issued: the gleaner, the opcode, and the words of that opcode that are legal: reserved
fields zero, wisp fields below 4, field bounds kept (R152, R153, R156, R487). -/
structure Form where
  g     : Fin 128
  op    : Nat
  legal : Nat → Bool

/-- The form of a gleaner instruction. -/
def instrForm : Sys2Proof.Instr → Option Form
  | .add g => some ⟨g, 0x01, fun w => bitsAt w 0 11 == 0⟩
  | .sub g => some ⟨g, 0x02, fun w => bitsAt w 0 11 == 0⟩
  | .and g => some ⟨g, 0x03, fun w => bitsAt w 0 11 == 0⟩
  | .or g => some ⟨g, 0x04, fun w => bitsAt w 0 11 == 0⟩
  | .xor g => some ⟨g, 0x05, fun w => bitsAt w 0 11 == 0⟩
  | .shl g => some ⟨g, 0x06, fun w => bitsAt w 0 11 == 0⟩
  | .shr g => some ⟨g, 0x07, fun w => bitsAt w 0 11 == 0⟩
  | .sra g => some ⟨g, 0x08, fun w => bitsAt w 0 11 == 0⟩
  | .mul g => some ⟨g, 0x09, fun w => bitsAt w 0 11 == 0⟩
  | .min g => some ⟨g, 0x0A, fun w => bitsAt w 0 11 == 0⟩
  | .max g => some ⟨g, 0x0B, fun w => bitsAt w 0 11 == 0⟩
  | .slt g => some ⟨g, 0x0C, fun w => bitsAt w 0 11 == 0⟩
  | .sltu g => some ⟨g, 0x0D, fun w => bitsAt w 0 11 == 0⟩
  | .beq g => some ⟨g, 0x0E, fun _ => true⟩
  | .bne g => some ⟨g, 0x0F, fun _ => true⟩
  | .addi g => some ⟨g, 0x10, fun _ => true⟩
  | .andi g => some ⟨g, 0x11, fun _ => true⟩
  | .ori g => some ⟨g, 0x12, fun _ => true⟩
  | .xori g => some ⟨g, 0x13, fun _ => true⟩
  | .shli g => some ⟨g, 0x14, fun w => bitsAt w 6 10 == 0⟩
  | .shri g => some ⟨g, 0x15, fun w => bitsAt w 6 10 == 0⟩
  | .srai g => some ⟨g, 0x16, fun w => bitsAt w 6 10 == 0⟩
  | .ldi g => some ⟨g, 0x17, fun w => rs1Field w == 0⟩
  | .lhi g => some ⟨g, 0x18, fun w => bitsAt w 18 3 == 0⟩
  | .blt g => some ⟨g, 0x19, fun _ => true⟩
  | .bge g => some ⟨g, 0x1A, fun _ => true⟩
  | .jal g => some ⟨g, 0x1B, fun _ => true⟩
  | .jr g => some ⟨g, 0x1C, fun w => bitsAt w 0 16 == 0⟩
  | .fex g => some ⟨g, 0x1D, fun w => bitsAt w 0 3 == 0 && decide (fldPos w + fldLen w ≤ 64)⟩
  | .fexs g => some ⟨g, 0x1E, fun w => bitsAt w 0 3 == 0 && decide (fldPos w + fldLen w ≤ 64)⟩
  | .fins g => some ⟨g, 0x1F, fun w => bitsAt w 0 3 == 0 && decide (fldPos w + fldLen w ≤ 64)⟩
  | .wfex g => some ⟨g, 0x20, fun w => bitsAt w 0 3 == 0 && decide (fldPos w + fldLen w ≤ 128) && decide (rs1Field w < 4)⟩
  | .wfins g => some ⟨g, 0x21, fun w => bitsAt w 0 3 == 0 && decide (fldPos w + fldLen w ≤ 128) && decide (rdField w < 4)⟩
  | .wmov g => some ⟨g, 0x22, fun w => bitsAt w 0 16 == 0 && decide (rdField w < 4) && decide (rs1Field w < 4)⟩
  | .lut g _ => some ⟨g, 0x23, fun w => bitsAt w 0 8 == 0⟩
  | .wlut g _ => some ⟨g, 0x24, fun w => bitsAt w 0 8 == 0 && tblQ w == 0 && decide (rdField w < 4)⟩
  | .curve g _ => some ⟨g, 0x25, fun w => bitsAt w 0 3 == 0⟩
  | .tadd g => some ⟨g, 0x26, fun w => bitsAt w 0 10 == 0⟩
  | .tsub g => some ⟨g, 0x27, fun w => bitsAt w 0 11 == 0⟩
  | .rnext g _ => some ⟨g, 0x28, fun w => bitsAt w 0 16 == 0 && decide (rs1Field w < 4)⟩
  | .rctx g _ => some ⟨g, 0x29, fun w => bitsAt w 0 11 == 0 && decide (rs1Field w < 4)⟩
  | .remit g => some ⟨g, 0x2A, fun w => rdField w == 0 && bitsAt w 0 16 == 0 && decide (rs1Field w < 4)⟩
  | .rdrop g => some ⟨g, 0x2B, fun w => rdField w == 0 && bitsAt w 0 16 == 0⟩
  | .rflag g => some ⟨g, 0x2C, fun w => bitsAt w 17 4 == 0 && decide (rdField w < 4)⟩
  | .pemit g => some ⟨g, 0x2D, fun w => rdField w == 0 && bitsAt w 0 16 == 0⟩
  | .ptest g => some ⟨g, 0x2E, fun w => bitsAt w 0 16 == 0 || bitsAt w 0 16 == 1 && decide (rs1Field w < 4) || bitsAt w 0 16 == 2 && rs1Field w == 0⟩
  | .gain g => some ⟨g, 0x2F, fun w => bitsAt w 0 11 == 0⟩
  | .take g => some ⟨g, 0x30, fun w => bitsAt w 0 26 == 0⟩
  | .done g => some ⟨g, 0x31, fun w => bitsAt w 0 26 == 0⟩
  | .sget g => some ⟨g, 0x32, fun w => rs1Field w == 0 && decide (imm16 w ≤ 10)⟩
  | .ctot g => some ⟨g, 0x33, fun w => bitsAt w 0 11 == 0⟩
  | .ld g _ => some ⟨g, 0x34, fun w => memSp w != 3 && memSize w != 3⟩
  | .st g => some ⟨g, 0x35, fun w => memSp w != 3 && memSize w != 3⟩
  | .wld g _ => some ⟨g, 0x36, fun w => memSp w != 3 && memSize w == 0 && decide (rdField w < 4)⟩
  | .wst g => some ⟨g, 0x37, fun w => memSp w != 3 && memSize w == 0 && decide (rdField w < 4)⟩
  | .crc g => some ⟨g, 0x38, fun w => bitsAt w 0 9 == 0⟩
  | .wcrc g => some ⟨g, 0x39, fun w => bitsAt w 0 11 == 0 && decide (rs2Field w < 4)⟩
  | .fenceInstruction g => some ⟨g, 0x3A, fun w => bitsAt w 0 26 == 0⟩
  | .waitev g => some ⟨g, 0x3B, fun w => decide (imm16 w < 4)⟩
  | .mail g => some ⟨g, 0x3C, fun w => rdField w == 0 && bitsAt w 0 11 == 0⟩
  | .mrecv g => some ⟨g, 0x3D, fun w => bitsAt w 0 21 == 0⟩
  | .nopInstruction g => some ⟨g, 0x3E, fun w => bitsAt w 0 26 == 0⟩
  | _ => none

/-- Gleaner g is about to run the legal word w of instruction i: the hub issues for it and w stands at its PC. -/
def State.Runs (s : State) (i : Sys2Proof.Instr) (g : Fin 128) (w : Nat) : Prop :=
  s.issues g = true ∧ s.codeWord (s.gleaner g).pc = w ∧ ∃ f, instrForm i = some f ∧ f.g = g ∧ opField w = f.op ∧ f.legal w = true

/-- Only general register i of the gleaner changes, to v with P bit p; a write to g0 changes nothing (R143). -/
def Gleaner.WritesG (x y : Gleaner) (i : Nat) (v : BitVec 64) (p : Bool) : Prop :=
  ∀ j, j < 32 → y.g j = (if j = i ∧ i ≠ 0 then v else x.g j) ∧ y.p j = (if j = i ∧ i ≠ 0 then p else x.p j)

/-- Only wisp i of the gleaner changes, to v with P bit p (R143). -/
def Gleaner.WritesW (x y : Gleaner) (i : Nat) (v : Rec128) (p : Bool) : Prop :=
  ∀ j, j < 4 → y.w j = (if j = i then v else x.w j) ∧ y.wp j = (if j = i then p else x.wp j)

/-- A byte address of an instruction: in the code area and a multiple of 4 (R143, R146). -/
def CodeAddr (a : Int) : Prop := 0 ≤ a ∧ a < 0x20000 ∧ a % 4 = 0

/-- The gleaner goes on at a byte address; one that is no address of an instruction is a FETCH fault (R143, R169). -/
def Gleaner.GoesTo (x y : Gleaner) (a : Int) : Prop :=
  (CodeAddr a → (y.pc.toNat : Int) = a ∧ y.fault = x.fault) ∧
    (¬CodeAddr a → y.pc = x.pc ∧ y.fault = some (6, BitVec.ofInt 17 a))

/-- The gleaner goes on at the next instruction. -/
def Gleaner.GoesOn (x y : Gleaner) : Prop := x.GoesTo y (x.pc.toNat + 4)

/-- Nothing but general registers, PC and fault differs. -/
def Gleaner.KeepsButG (x y : Gleaner) : Prop := { y with regs := x.regs, pg := x.pg, pc := x.pc, fault := x.fault } = x

/-- Nothing but wisps, PC and fault differs. -/
def Gleaner.KeepsButW (x y : Gleaner) : Prop := { y with wisps := x.wisps, pw := x.pw, pc := x.pc, fault := x.fault } = x

/-- Nothing but general registers, wisps, the latch SP, PC, fault and the read cursor differs. -/
def Gleaner.KeepsButGW (x y : Gleaner) : Prop :=
  { y with regs := x.regs, pg := x.pg, wisps := x.wisps, pw := x.pw, sp := x.sp, pc := x.pc, fault := x.fault,
           cursor := x.cursor } = x

/-- The answer of an instruction that changes the state of gleaner g alone. -/
def AnswersGleaner (i : Sys2Proof.Instr) (s : State) (g : Fin 128) (P : Gleaner → Gleaner → Prop) : Prop :=
  ∃ y, exec i s = .next (s.setGleaner g y) ∧ P (s.gleaner g) y

/-- rd takes a value and a P bit, and the gleaner goes on. -/
def GivesRd (i : Sys2Proof.Instr) (s : State) (g : Fin 128) (rd : Nat) (v : BitVec 64) (p : Bool) : Prop :=
  AnswersGleaner i s g (fun x y => x.WritesG y rd v p ∧ x.GoesOn y ∧ x.KeepsButG y)

/-- wd takes a value and a P bit, and the gleaner goes on. -/
def GivesWd (i : Sys2Proof.Instr) (s : State) (g : Fin 128) (wd : Nat) (v : Rec128) (p : Bool) : Prop :=
  AnswersGleaner i s g (fun x y => x.WritesW y wd v p ∧ x.GoesOn y ∧ x.KeepsButW y)

/-- A fault of the gleaner: cause and address are recorded, and the instruction has no other effect (R169). -/
def Faults (i : Sys2Proof.Instr) (s : State) (g : Fin 128) (cause : Nat) : Prop :=
  exec i s = .next (s.setGleaner g { s.gleaner g with fault := some (cause, (s.gleaner g).pc) })

/-- Bytes of a space that instructions name: local, cluster, hub shared (R146). -/
def spaceBytes (sp : Nat) : Nat := if sp = 0 then 0x10000 else if sp = 1 then 0x80000 else 0x800000

/-- An access of n bytes that R146 and R147 allow a load. -/
def MayLoad (sp a n : Nat) : Prop := a % n = 0 ∧ a + n ≤ spaceBytes sp ∧ (sp = 2 → 0x600000 ≤ a)

/-- An access of n bytes that R146 and R147 allow a store: outside the code area, the tables and the stored means. -/
def State.MayStore (s : State) (sp a n : Nat) : Prop :=
  a % n = 0 ∧ a + n ≤ spaceBytes sp ∧ (sp = 1 → 0x20000 ≤ a) ∧
    (sp = 2 → 0x6A4000 ≤ a ∧ ∀ i, i < n → s.progTableAt (a + i) = none)

/-- Where the byte a of a space that gleaner g may store to stands in the model's one byte memory: its own local memory, the data
of its cluster, or hub shared memory. -/
def storeAddr (g sp a : Nat) : Nat :=
  if sp = 0 then g * 0x10000 + a else if sp = 1 then 0x1000000 + g / 8 * 0x80000 + a else 0x2000000 + a

/-- The memory after a store of bytes at an address with one poison tag: exactly those bytes and the tags of their words differ. -/
def GMem.Stored (m m' : GMem) (a : Nat) (bs : List Byte) (poison : Bool) : Prop :=
  (∀ k, byteAt m'.bytes k = if a ≤ k ∧ k < a + bs.length then bs.getD (k - a) 0 else byteAt m.bytes k) ∧
    (∀ k, Tbl.get false m'.tags k = if a / 4 ≤ k ∧ k < (a + bs.length) / 4 then poison else Tbl.get false m.tags k) ∧
    m'.replays = m.replays

/-- A quotient rounded to the nearest integer, ties away from zero. -/
def nearest (n : Int) (d : Nat) : Int := if n < 0 then -((-n * 2 + d) / (2 * d)) else (n * 2 + d) / (2 * d)

/-! ### Events -/

/-- Exactly one event word joined the event FIFO to Hayward, and it has this code (R454, R455). -/
def Raised (s t : State) (code : Nat) : Prop := ∃ e, t.hay.fifo = s.hay.fifo ++ [e] ∧ e.code = code

/-- A counter of QUERY counted n more, saturating at 32 bits (R114). -/
def Counted (s t : State) (f : Fig) (n : Nat) : Prop := t.count f = min 0xFFFFFFFF (s.count f + n)

/-! ### Commands of the host -/

/-- A command word with this class and SUB is in progress on a ring or as a script step, outside TRIPPED (R186). -/
def State.InProgress (s : State) (src : Src) (cl sub w : Nat) : Prop :=
  s.live = true ∧ ∃ c, s.cmdOf src = some c ∧ c.word.toNat = w ∧ w % 256 = cl ∧ w / 2 ^ 8 % 256 = sub

/-- ARG0 and ARG1 of a command word (R186). -/
def arg0 (w : Nat) : Nat := w / 2 ^ 32 % 2 ^ 32
def arg1 (w : Nat) : Nat := w / 2 ^ 64 % 2 ^ 64

/-! ### The whole machine -/

/-- The commands that act without power or in TRIPPED too: what reaches the always-on domain, the test port and the pins, and what
falls away with the power, and the loss of REFCLK (R13, R70, R404 to R406, R431, R481). -/
def worksUnpowered : Sys2Proof.Instr → Bool
  | .powerOnReset .. | .pwrgdFall | .tripRestart | .evaluation .. | .xtalStop | .pciedown .. | .injectedTrigger .. | .blankPauseEnd
  | .jtagInstruction .. | .testLogicReset | .refLost .. | .refBack => true
  | _ => false

end Sys2Proof.Machine
end

