-- ==== Sys2Proof/Certificates/Slice0/Obligations.lean ====
section
/-!
DEFINITION. The statements for the provers. Each docstring is the statement in words; OBLIGATIONS.json gives the rules of
spec/ that it rests on.
-/

open Sys2Proof Sys2Proof.Machine

/-! ### The queue and the whole machine -/

/-- A step with a command at the front of the queue is the command's effect on the state with the rest of the queue, and a step
with an empty queue changes nothing (the idle step is the model's own choice, log entry 1). -/
def Obligations.StepRunsTheFrontCommand : Prop :=
  (∀ (s : State) (c : Instr) (rest : List Instr), step { s with pending := c :: rest } = exec c { s with pending := rest }) ∧
  ∀ s : State, s.pending = [] → step s = .next s

/-- The state after reset meets that form, and holds what the manual gives: mode SEED in ACTIVE, epoch 0 slice 0, the settings
words of every channel and die At SEED, loops and safety loops At SEED with 3.5 mA, rings and memories empty, gleaners clear. -/
def Obligations.ResetHoldsTheSpecValues : Prop :=
  let s := State.reset
  s.MemoryWf ∧ s.pending = [] ∧ s.node.mode = .seed ∧ s.node.pstate = .active ∧ s.node.tripped = false ∧
  s.clock.epoch = 0 ∧ s.clock.slice = 0 ∧
  (∀ c, (s.cell c).word.vote = 0x0FFCCC00 ∧ (s.cell c).trange = 7 ∧ (s.cell c).hitlim = 64) ∧
  (∀ d, (s.fe d).region.vote = 0xE000000002000000 ∧ (s.fe d).tdcCtl = 0x04006100 ∧ (s.fe d).feCtl = 0x00C84800) ∧
  (∀ n, (s.loop n).w0.toNat = 10 * 2 ^ 34 ∧ (s.loop n).w1 = 0 ∧ (s.loop n).w2 = 0 ∧
    (s.loop n).w3.toNat = 16 * 2 ^ 56 + 8000 * 2 ^ 24 ∧ (s.loop n).w4.toNat = 128 * 2 ^ 40 ∧ (s.loop n).out = false) ∧
  (∀ l, l = s.loopA ∨ l = s.loopB → l.word.toNat = 8000 * 2 ^ 23 ∧ l.set_ = 896) ∧
  s.mon.header = 0 ∧ s.mon.diode = 0x8106008106000000 ∧ s.pcie.mask = 0xF ∧
  (∀ k, (s.dring k).imod = 100 ∧ (s.dring k).en = false ∧ (s.cring k).en = false) ∧
  ∀ g, (s.gleaner g).pc = 0 ∧ (s.gleaner g).sheaf = none ∧ ∀ i, (s.gleaner g).g i = 0 ∧ (s.gleaner g).p i = false

/-- Every step keeps the byte memories in their canonical form: the gleaners' bytes and poison tags, and the bytes of every
table in force (the form is the model's own). -/
def Obligations.StepsKeepMemoryWellFormed : Prop :=
  ∀ s t : State, s.MemoryWf → step s = .next t → t.MemoryWf

/-- In TRIPPED, and while the power is not good, no command changes anything but those of the always-on domain, the test port,
the pins, the loss of a host link and of REFCLK, and triggers and pauses that fall away. -/
def Obligations.OnlyAlwaysOnCommandsActInTripped : Prop :=
  ∀ (s : State) (c : Instr), s.node.tripped = true ∨ s.node.pwrgd = false → worksUnpowered c = false → exec c s = .next s

/-! ### The gleaners -/

/-- The register instructions write rd with the value that R156 gives and with the P bit of their sources, go on at the next
instruction, and change nothing else: add, sub, and, or, xor, shl, shr, sra, mul, min, max, slt and sltu. The immediate
instructions write rd with the value that R156 gives and with the P bit of rs1, go on, and change nothing else: addi, andi, ori,
xori, shli, shri, srai, ldi (unpoisoned) and lhi (which keeps the other bits and the P bit of rd). -/
def Obligations.RegisterAndImmediateInstructionsWriteRd : Prop :=
  (∀ (s : State) (g : Fin 128) (w : Nat),
     let x := s.gleaner g
     let a := x.g (rs1Field w)
     let b := x.g (rs2Field w)
     let n := b.toNat % 64
     let gives := fun (i : Instr) (v : BitVec 64) =>
       s.Runs i g w → GivesRd i s g (rdField w) v (x.p (rs1Field w) || x.p (rs2Field w))
     gives (.add g) (a + b) ∧ gives (.sub g) (a - b) ∧ gives (.and g) (a &&& b) ∧ gives (.or g) (a ||| b) ∧
     gives (.xor g) (a ^^^ b) ∧ gives (.shl g) (BitVec.ofNat 64 (a.toNat * 2 ^ n)) ∧
     gives (.shr g) (BitVec.ofNat 64 (a.toNat / 2 ^ n)) ∧ gives (.sra g) (BitVec.ofInt 64 (a.toInt / 2 ^ n)) ∧
     gives (.mul g) (BitVec.ofNat 64 (a.toNat * b.toNat)) ∧ gives (.min g) (BitVec.ofInt 64 (min a.toInt b.toInt)) ∧
     gives (.max g) (BitVec.ofInt 64 (max a.toInt b.toInt)) ∧ gives (.slt g) (if a.toInt < b.toInt then 1 else 0) ∧
     gives (.sltu g) (if a.toNat < b.toNat then 1 else 0)) ∧
  (∀ (s : State) (g : Fin 128) (w : Nat),
     let x := s.gleaner g
     let a := x.g (rs1Field w)
     let imm := BitVec.ofNat 16 w
     let n := w % 64
     let k := w / 2 ^ 16 % 4
     let gives := fun (i : Instr) (v : BitVec 64) => s.Runs i g w → GivesRd i s g (rdField w) v (x.p (rs1Field w))
     gives (.addi g) (a + imm.signExtend 64) ∧ gives (.andi g) (a &&& imm.setWidth 64) ∧
     gives (.ori g) (a ||| imm.setWidth 64) ∧ gives (.xori g) (a ^^^ imm.setWidth 64) ∧
     gives (.shli g) (BitVec.ofNat 64 (a.toNat * 2 ^ n)) ∧ gives (.shri g) (BitVec.ofNat 64 (a.toNat / 2 ^ n)) ∧
     gives (.srai g) (BitVec.ofInt 64 (a.toInt / 2 ^ n)) ∧
     (s.Runs (.ldi g) g w → GivesRd (.ldi g) s g (rdField w) (imm.signExtend 64) false) ∧
     (s.Runs (.lhi g) g w → ∃ v : BitVec 64,
       (∀ j, j < 64 → v.getLsbD j =
         if 16 * k ≤ j ∧ j < 16 * k + 16 then imm.getLsbD (j - 16 * k) else (x.g (rdField w)).getLsbD j) ∧
       GivesRd (.lhi g) s g (rdField w) v (x.p (rdField w))))

/-- The field instructions move the len bits at pos as R156 says, go on, and change nothing else: fex, fexs and wfex extend the
field into rd; fins and wfins replace the field and keep the other bits, poisoned when either part is. wmov copies a wisp with
its P bit; rflag sets or clears the masked bits among wd[46:31] and keeps the P bit; ptest reads a P bit or SP into rd; sget
reads the state of the held sheaf into rd; each goes on and changes nothing else. -/
def Obligations.FieldAndWispInstructions : Prop :=
  (∀ (s : State) (g : Fin 128) (w : Nat),
     let x := s.gleaner g
     let pos := w / 2 ^ 9 % 128
     let len := w / 2 ^ 3 % 64 + 1
     let rd := rdField w
     let rs := rs1Field w
     (s.Runs (.fex g) g w → ∃ v : BitVec 64,
       (∀ j, j < 64 → v.getLsbD j = (decide (j < len) && (x.g rs).getLsbD (pos + j))) ∧
       GivesRd (.fex g) s g rd v (x.p rs)) ∧
     (s.Runs (.fexs g) g w → ∃ v : BitVec 64,
       (∀ j, j < 64 → v.getLsbD j = (x.g rs).getLsbD (pos + min j (len - 1))) ∧
       GivesRd (.fexs g) s g rd v (x.p rs)) ∧
     (s.Runs (.fins g) g w → ∃ v : BitVec 64,
       (∀ j, j < 64 → v.getLsbD j =
         if pos ≤ j ∧ j < pos + len then (x.g rs).getLsbD (j - pos) else (x.g rd).getLsbD j) ∧
       GivesRd (.fins g) s g rd v (x.p rs || x.p rd)) ∧
     (s.Runs (.wfex g) g w → ∃ v : BitVec 64,
       (∀ j, j < 64 → v.getLsbD j = (decide (j < len) && (x.w rs).getLsbD (pos + j))) ∧
       GivesRd (.wfex g) s g rd v (x.wp rs)) ∧
     (s.Runs (.wfins g) g w → ∃ v : Rec128,
       (∀ j, j < 128 → v.getLsbD j =
         if pos ≤ j ∧ j < pos + len then (x.g rs).getLsbD (j - pos) else (x.w rd).getLsbD j) ∧
       GivesWd (.wfins g) s g rd v (x.p rs || x.wp rd))) ∧
  (∀ (s : State) (g : Fin 128) (w : Nat),
     let x := s.gleaner g
     let rd := rdField w
     let rs := rs1Field w
     (s.Runs (.wmov g) g w → GivesWd (.wmov g) s g rd (x.w rs) (x.wp rs)) ∧
     (s.Runs (.rflag g) g w → ∃ v : Rec128,
       (∀ j, j < 128 → v.getLsbD j =
         if 31 ≤ j ∧ j ≤ 46 ∧ w.testBit (j - 31) then !w.testBit 16 else (x.w rd).getLsbD j) ∧
       GivesWd (.rflag g) s g rd v (x.wp rd)) ∧
     (s.Runs (.ptest g) g w →
       GivesRd (.ptest g) s g rd
         (if (if w % 4 = 0 then x.p rs else if w % 4 = 1 then x.wp rs else x.sp) then 1 else 0) false) ∧
     (s.Runs (.sget g) g w → w % 2 ^ 16 = 9 → GivesRd (.sget g) s g rd (BitVec.ofNat 64 g) false) ∧
     (s.Runs (.sget g) g w → w % 2 ^ 16 ≠ 9 → x.sheaf = none → GivesRd (.sget g) s g rd 0 false) ∧
     ∀ sh, x.sheaf = some sh → s.Runs (.sget g) g w →
       let gives := fun (sel v : Nat) => w % 2 ^ 16 = sel → GivesRd (.sget g) s g rd (BitVec.ofNat 64 v) false
       gives 0 sh.region ∧ gives 1 sh.epoch.toNat ∧ gives 2 sh.slice.toNat ∧ gives 3 sh.recs.length ∧
       gives 4 (min 65535 (sh.nlost + x.outLost)) ∧ gives 5 sh.ctx.length ∧
       gives 6 (sh.hold.toNat * 16 + sh.fence.toNat * 8 + sh.ctxovf.toNat * 4 + (sh.cap || x.outCap).toNat * 2 +
         sh.forced.toNat) ∧
       gives 7 (sh.epoch.toNat * 4096 + sh.slice.toNat) ∧ gives 8 (sh.recs.length - x.cursor) ∧ gives 10 sh.run)

/-- gain, ctot, tadd, tsub, crc and wcrc write rd with the value of R159, R160 or R165, poisoned as their sources are (tadd and
tsub also when the time is out of range), go on, and change nothing else. -/
def Obligations.HitArithmeticWritesRd : Prop :=
  ∀ (s : State) (g : Fin 128) (w : Nat),
    let x := s.gleaner g
    let a := x.g (rs1Field w)
    let b := x.g (rs2Field w)
    let p := x.p (rs1Field w) || x.p (rs2Field w)
    let rd := rdField w
    let e := fun (v : BitVec 64) => if v.toNat / 2 ^ 33 % 4 = 3 then (-1 : Int) else (v.toNat / 2 ^ 33 % 4 : Nat)
    let t := fun (v : BitVec 64) => ((v.toNat % 2 ^ 33 : Nat) : Int)
    (s.Runs (.gain g) g w →
      GivesRd (.gain g) s g rd
        (BitVec.ofInt 64 (max 0 (min 65535
          (((a.toInt * 16 - (b.toNat % 2 ^ 16 : Nat)) * (b.toNat / 2 ^ 16 % 2 ^ 32 : Nat) + 2 ^ 27) / 2 ^ 28)))) p) ∧
    (s.Runs (.ctot g) g w →
      GivesRd (.ctot g) s g rd
        (if a = 0 then 0 else if 16383 ≤ a.toInt then 16383
         else BitVec.ofInt 64 (max 1 (min 16382 (a.toInt - (b.extractLsb' 48 15).toInt)))) p) ∧
    (s.Runs (.tadd g) g w → a.toNat / 2 ^ 33 % 4 = 2 → GivesRd (.tadd g) s g rd 0 true) ∧
    (s.Runs (.tadd g) g w → a.toNat / 2 ^ 33 % 4 ≠ 2 →
      ∀ q r : Int, 0 ≤ r → r < 2 ^ 33 → q * 2 ^ 33 + r = e a * 2 ^ 33 + t a + (if w.testBit 10 then -b.toInt else b.toInt) →
        GivesRd (.tadd g) s g rd
          (BitVec.ofInt 64 (r + (if q = 0 then 0 else if q = 1 then 1 else if q = -1 then 3 else 2) * 2 ^ 33))
          (decide (q < -1) || decide (1 < q) || p)) ∧
    (s.Runs (.tsub g) g w → a.toNat / 2 ^ 33 % 4 = 2 ∨ b.toNat / 2 ^ 33 % 4 = 2 → GivesRd (.tsub g) s g rd 0 true) ∧
    (s.Runs (.tsub g) g w → a.toNat / 2 ^ 33 % 4 ≠ 2 → b.toNat / 2 ^ 33 % 4 ≠ 2 →
      GivesRd (.tsub g) s g rd (BitVec.ofInt 64 ((e a - e b) * 2 ^ 33 + t a - t b)) p) ∧
    (s.Runs (.crc g) g w →
      GivesRd (.crc g) s g rd
        (BitVec.ofNat 64 (crcRaw (a.toNat % 2 ^ 32) (leBytes (2 ^ (w / 2 ^ 9 % 4)) b.toNat))) p) ∧
    (s.Runs (.wcrc g) g w →
      GivesRd (.wcrc g) s g rd
        (BitVec.ofNat 64 (crcRaw (a.toNat % 2 ^ 32) (leBytes 16 (x.w (rs2Field w)).toNat)))
        (x.p (rs1Field w) || x.wp (rs2Field w)))

/-- A branch goes to its target when its condition holds of the values as read and goes on otherwise, and sets SP when an
operand is poisoned; jal and jr write PC + 4 to rd and jump; a target outside the code area or not a multiple of 4 is a FETCH
fault; nop and fence only go on. Nothing else of the node changes. -/
def Obligations.BranchesAndJumpsMovePc : Prop :=
  ∀ (s : State) (g : Fin 128) (w : Nat),
    let x := s.gleaner g
    let pc : Int := x.pc.toNat
    let a := x.g (braRs1 w)
    let b := x.g (braRs2 w)
    let branch := fun (i : Instr) (c : Prop) => s.Runs i g w →
      AnswersGleaner i s g (fun x y =>
        (c → x.GoesTo y (pc + 4 * (BitVec.ofNat 16 w).toInt)) ∧ (¬c → x.GoesOn y) ∧
        y.sp = (x.sp || x.p (braRs1 w) || x.p (braRs2 w)) ∧
        { y with sp := x.sp, pc := x.pc, fault := x.fault } = x)
    branch (.beq g) (a = b) ∧ branch (.bne g) (a ≠ b) ∧ branch (.blt g) (a.toInt < b.toInt) ∧
    branch (.bge g) (b.toInt ≤ a.toInt) ∧
    (s.Runs (.jal g) g w →
      AnswersGleaner (.jal g) s g (fun x y =>
        x.WritesG y (rdField w) (BitVec.ofInt 64 (pc + 4)) false ∧ x.GoesTo y (pc + 4 * (BitVec.ofNat 21 w).toInt) ∧
        x.KeepsButG y)) ∧
    (s.Runs (.jr g) g w →
      AnswersGleaner (.jr g) s g (fun x y =>
        x.WritesG y (rdField w) (BitVec.ofInt 64 (pc + 4)) false ∧ y.sp = (x.sp || x.p (rs1Field w)) ∧
        x.GoesTo y ((x.g (rs1Field w)).toNat : Int) ∧ Gleaner.KeepsButG x { y with sp := x.sp })) ∧
    (s.Runs (.nopInstruction g) g w →
      AnswersGleaner (.nopInstruction g) s g (fun x y => x.GoesOn y ∧ { y with pc := x.pc, fault := x.fault } = x)) ∧
    (s.Runs (.fenceInstruction g) g w →
      AnswersGleaner (.fenceInstruction g) s g (fun x y => x.GoesOn y ∧ { y with pc := x.pc, fault := x.fault } = x))

/-- ld and wld of an accessible, aligned address give the little-endian bytes there (a 4-byte ld extended by its size code, wld
all 16 bytes), poisoned when a word is; they change nothing else. A read that fails parity stalls the gleaner for a reload when
it lies in a loaded table and is poisoned elsewhere; a poisoned base gives a poisoned 0 and sets SP; an access that R146 and
R147 forbid is an ADDRESS fault. -/
def Obligations.LoadsReadMemory : Prop :=
  ∀ (s : State) (g : Fin 128) (w : Nat) (pf : Bool),
    let x := s.gleaner g
    let sp := memSp w
    let a := memAddr x w
    let n := if memSize w = 2 then 8 else 4
    let poisoned := x.p (rs1Field w)
    let value := fun (v : Nat) => if memSize w = 1 then (BitVec.ofNat 32 v).signExtend 64 else BitVec.ofNat 64 v
    (s.Runs (.ld g pf) g w →
      (poisoned = false → MayLoad sp a n → pf = false →
        GivesRd (.ld g pf) s g (rdField w) (value (s.load g sp a n).1) (s.load g sp a n).2) ∧
      (poisoned = false → MayLoad sp a n → pf = true → (s.place1 g sp a).reloads = true →
        exec (.ld g pf) s = .next (s.setGleaner g { x with wait := .reload })) ∧
      (poisoned = false → MayLoad sp a n → pf = true → (s.place1 g sp a).reloads = false →
        ∃ c y, exec (.ld g pf) s = .next (State.setGleaner { s with counters := c } g y) ∧
            x.WritesG y (rdField w) (value (s.load g sp a n).1) true ∧ x.GoesOn y ∧ x.KeepsButG y) ∧
      (poisoned = true → AnswersGleaner (.ld g pf) s g (fun x y =>
        x.WritesG y (rdField w) 0 true ∧ y.sp = true ∧ x.GoesOn y ∧ x.KeepsButG { y with sp := x.sp })) ∧
      (poisoned = false → ¬MayLoad sp a n → Faults (.ld g pf) s g 3)) ∧
    (s.Runs (.wld g pf) g w →
      (poisoned = false → MayLoad sp a 16 → pf = false →
        GivesWd (.wld g pf) s g (rdField w) (BitVec.ofNat 128 (s.load g sp a 16).1) (s.load g sp a 16).2) ∧
      (poisoned = false → MayLoad sp a 16 → pf = true → (s.place1 g sp a).reloads = true →
        exec (.wld g pf) s = .next (s.setGleaner g { x with wait := .reload })) ∧
      (poisoned = false → MayLoad sp a 16 → pf = true → (s.place1 g sp a).reloads = false →
        ∃ c y, exec (.wld g pf) s = .next (State.setGleaner { s with counters := c } g y) ∧
            x.WritesW y (rdField w) (BitVec.ofNat 128 (s.load g sp a 16).1) true ∧ x.GoesOn y ∧ x.KeepsButW y) ∧
      (poisoned = true → AnswersGleaner (.wld g pf) s g (fun x y =>
        x.WritesW y (rdField w) 0 true ∧ y.sp = true ∧ x.GoesOn y ∧ x.KeepsButW { y with sp := x.sp })) ∧
      (poisoned = false → ¬MayLoad sp a 16 → Faults (.wld g pf) s g 3))

/-- st and wst of an address that may be stored to write exactly the little-endian bytes of the register (4 or 8 of rt, 16 of
wt) and the poison tags of their words, and go on; every other byte keeps its value and every other part of the node is as it
was. A poisoned base stores nothing and sets SP; a forbidden store is a WRITE fault when it is aligned and inside the space,
else an ADDRESS fault. -/
def Obligations.StoresWriteMemory : Prop :=
  ∀ (s : State) (g : Fin 128) (w : Nat),
    let x := s.gleaner g
    let sp := memSp w
    let a := memAddr x w
    let stores := fun (i : Instr) (n : Nat) (bytes : List Byte) (poison : Bool) => s.Runs i g w →
      (x.p (rs1Field w) = false → s.MayStore sp a n →
        ∃ m y, exec i s = .next (State.setGleaner { s with gmem := m } g y) ∧
          s.gmem.Stored m (storeAddr g sp a) bytes poison ∧ x.GoesOn y ∧ { y with pc := x.pc, fault := x.fault } = x) ∧
      (x.p (rs1Field w) = true →
        AnswersGleaner i s g (fun x y => y.sp = true ∧ x.GoesOn y ∧ { y with sp := x.sp, pc := x.pc, fault := x.fault } = x)) ∧
      (x.p (rs1Field w) = false → ¬s.MayStore sp a n → a % n = 0 → a + n ≤ spaceBytes sp → Faults i s g 4) ∧
      (x.p (rs1Field w) = false → a % n ≠ 0 ∨ spaceBytes sp < a + n → Faults i s g 3)
    (∀ n, n = (if memSize w = 2 then 8 else 4) →
      stores (.st g) n ((List.range n).map (fun i => (x.g (rdField w)).extractLsb' (8 * i) 8)) (x.p (rdField w))) ∧
    stores (.wst g) 16 ((List.range 16).map (fun i => (x.w (rdField w)).extractLsb' (8 * i) 8)) (x.wp (rdField w))

/-- lut, wlut and curve read the table that T names: lut gives the entry rs1 + off (a word of a 16-byte entry, a narrower entry
extended as its descriptor says), wlut the whole entry, curve the interpolation of six knots at rs1, shifted with rounding. An
undefined table or an index outside it is a TABLE fault, a read that fails parity stalls for a reload, and a poisoned index
gives a poisoned 0 and sets SP. -/
def Obligations.TableInstructionsReadEntries : Prop :=
  ∀ (s : State) (g : Fin 128) (w : Nat) (pf : Bool),
    let x := s.gleaner g
    let i := (x.g (rs1Field w) + BitVec.ofNat 64 (tblOff w)).toNat
    let k := (x.g (rs2Field w)).toNat
    (s.Runs (.lut g pf) g w →
      (x.p (rs1Field w) = true → AnswersGleaner (.lut g pf) s g (fun x y =>
        x.WritesG y (rdField w) 0 true ∧ y.sp = true ∧ x.GoesOn y ∧ x.KeepsButG { y with sp := x.sp })) ∧
      (x.p (rs1Field w) = false → s.desc (tblT w) = none → Faults (.lut g pf) s g 5) ∧
      ∀ d, s.desc (tblT w) = some d → x.p (rs1Field w) = false →
        (d.count ≤ i ∨ (tblQ w = 1 ∧ d.size ≠ 16) → Faults (.lut g pf) s g 5) ∧
        (i < d.count → (tblQ w = 1 → d.size = 16) → pf = true →
          exec (.lut g pf) s = .next (s.setGleaner g { x with wait := .reload })) ∧
        (i < d.count → (tblQ w = 1 → d.size = 16) → pf = false →
          GivesRd (.lut g pf) s g (rdField w)
            (if d.size = 16 then BitVec.ofNat 64 (s.entry d i / 2 ^ (64 * tblQ w))
             else if d.signed then (BitVec.ofNat (8 * d.size) (s.entry d i)).signExtend 64
             else BitVec.ofNat 64 (s.entry d i)) false)) ∧
    (s.Runs (.wlut g pf) g w →
      (x.p (rs1Field w) = true → AnswersGleaner (.wlut g pf) s g (fun x y =>
        x.WritesW y (rdField w) 0 true ∧ y.sp = true ∧ x.GoesOn y ∧ x.KeepsButW { y with sp := x.sp })) ∧
      (x.p (rs1Field w) = false → s.desc (tblT w) = none → Faults (.wlut g pf) s g 5) ∧
      ∀ d, s.desc (tblT w) = some d → x.p (rs1Field w) = false →
        (d.count ≤ i → Faults (.wlut g pf) s g 5) ∧
        (i < d.count → pf = true → exec (.wlut g pf) s = .next (s.setGleaner g { x with wait := .reload })) ∧
        (i < d.count → pf = false →
          GivesWd (.wlut g pf) s g (rdField w) (BitVec.ofNat 128 (s.entry d i)) false)) ∧
    (s.Runs (.curve g pf) g w →
      (x.p (rs2Field w) = true → AnswersGleaner (.curve g pf) s g (fun x y =>
        x.WritesG y (rdField w) 0 true ∧ y.sp = true ∧ x.GoesOn y ∧ x.KeepsButG { y with sp := x.sp })) ∧
      (x.p (rs2Field w) = false → s.desc (crvT w) = none → Faults (.curve g pf) s g 5) ∧
      ∀ d, s.desc (crvT w) = some d → x.p (rs2Field w) = false →
        (d.count ≤ k + 5 → Faults (.curve g pf) s g 5) ∧
        (k + 5 < d.count → pf = true → exec (.curve g pf) s = .next (s.setGleaner g { x with wait := .reload })) ∧
        (k + 5 < d.count → pf = false →
          let v := (x.g (rs1Field w)).toInt
          let X := fun j => ((s.entry d (k + j) % 2 ^ 32 : Nat) : Int)
          let Y := fun j => if d.size = 4 then (Config.narrowKnot (s.entry d (k + j))).toInt
            else (BitVec.ofNat 32 (s.entry d (k + j) / 2 ^ 32)).toInt
          let gives := fun (y : Int) => GivesRd (.curve g pf) s g (rdField w)
            (BitVec.ofInt 64 (if crvSh w = 0 then y else (y + 2 ^ (crvSh w - 1)) / 2 ^ crvSh w)) (x.p (rs1Field w))
          (v ≤ X 0 → gives (Y 0)) ∧ (X 0 < v → X 5 ≤ v → gives (Y 5)) ∧
          (X 0 < v → v < X 5 → ∀ j, j < 5 → X j ≤ v → v < X (j + 1) → (∀ j', j' < j → ¬(X j' ≤ v ∧ v < X (j' + 1))) →
            gives (Y j + nearest ((Y (j + 1) - Y j) * (v - X j)) (X (j + 1) - X j).toNat))))

/-- A gleaner instruction whose word has its opcode but an illegal field is an ILLEGAL fault with no other effect, and a command
for an instruction that does not stand at the PC of a gleaner that issues changes nothing. rnext, rctx, rdrop, remit, pemit,
take and done act on the held sheaf as R161 to R163 say, and each is a STATE fault in the wrong case: rnext, rctx, rdrop, remit,
pemit and done while no sheaf is held, take while one is held. -/
def Obligations.IllegalWordsAndSheafStateFault : Prop :=
  (∀ (s : State) (i : Instr) (f : Form), instrForm i = some f →
     let w := s.codeWord (s.gleaner f.g).pc
     (s.issues f.g = true → opField w = f.op → f.legal w = false → Faults i s f.g 1) ∧
     (s.issues f.g = false ∨ opField w ≠ f.op → exec i s = .next s)) ∧
  (∀ (s : State) (g : Fin 128) (w : Nat) (bad : BitVec 3),
     let x := s.gleaner g
     (x.sheaf = none →
       (s.Runs (.rnext g bad) g w → Faults (.rnext g bad) s g 2) ∧ (s.Runs (.rctx g bad) g w → Faults (.rctx g bad) s g 2) ∧
       (s.Runs (.rdrop g) g w → Faults (.rdrop g) s g 2) ∧ (s.Runs (.remit g) g w → Faults (.remit g) s g 2) ∧
       (s.Runs (.pemit g) g w → Faults (.pemit g) s g 2) ∧ (s.Runs (.done g) g w → Faults (.done g) s g 2) ∧
       (s.Runs (.take g) g w → exec (.take g) s = .next (s.setGleaner g { x with wait := .take }))) ∧
     (x.sheaf ≠ none → s.Runs (.take g) g w → Faults (.take g) s g 2))

/-- rnext delivers the record at the cursor and rctx the context record of number rs2: KIND in rd (never poisoned), and in wd
the record with CHAN, poisoned, with KIND 0xE, when a word was received failed or fails parity as it is read; CHAN is then 0xFFF
when word 2 failed or the kind is one that R103 does not list, else that of the record's LCHAN. Past the last record both give
zeros. rdrop skips records; a poisoned index only sets SP (rctx then gives a poisoned wisp of zeros). Nothing else changes. -/
def Obligations.RecordReads : Prop :=
  ∀ (s : State) (g : Fin 128) (w : Nat) (errs : BitVec 3) (sh : Sheaf),
    let x := s.gleaner g
    let rd := rdField w
    let wd := rs1Field w
    x.sheaf = some sh →
    let delivers := fun (i : Instr) (r : SRec) (cursor : Nat) =>
      let kind := r.bits.toNat / 2 ^ 92
      let lchan := r.bits.toNat / 2 ^ 83 % 512
      let bad := decide (errs ≠ 0) || !r.ok2 || !r.ok1 || !r.ok0
      let k := if bad then 0xE else kind
      let chan :=
        if bad then (if r.ok2 ∧ errs.getLsbD 2 = false ∧ producedKind kind then sh.region * 512 + lchan else 0xFFF)
        else if kind = 0x1 ∨ kind = 0xE then (if lchan = 0x1FF then 0xFFF else sh.region * 512 + lchan) else 0
      AnswersGleaner i s g (fun x y =>
        x.WritesG y rd (BitVec.ofNat 64 k) false ∧
        x.WritesW y wd (BitVec.ofNat 128 (k * 2 ^ 124 + chan * 2 ^ 112 + r.bits.toNat)) (bad || decide (kind = 0xE)) ∧
        y.cursor = cursor ∧ y.sp = x.sp ∧ x.GoesOn y ∧ x.KeepsButGW y)
    let zeros := fun (i : Instr) (p : Bool) =>
      AnswersGleaner i s g (fun x y =>
        x.WritesG y rd 0 false ∧ x.WritesW y wd 0 p ∧ y.cursor = x.cursor ∧ y.sp = (x.sp || p) ∧ x.GoesOn y ∧ x.KeepsButGW y)
    (s.Runs (.rnext g errs) g w →
      (∀ r, sh.recs[x.cursor]? = some r → delivers (.rnext g errs) r (x.cursor + 1)) ∧
      (sh.recs.length ≤ x.cursor → zeros (.rnext g errs) false)) ∧
    (s.Runs (.rctx g errs) g w →
      (x.p (rs2Field w) = true → zeros (.rctx g errs) true) ∧
      (x.p (rs2Field w) = false → ∀ r, sh.ctx[(x.g (rs2Field w)).toNat]? = some r → delivers (.rctx g errs) r x.cursor) ∧
      (x.p (rs2Field w) = false → sh.ctx.length ≤ (x.g (rs2Field w)).toNat → zeros (.rctx g errs) false)) ∧
    (s.Runs (.rdrop g) g w →
      (x.p (rs1Field w) = true → AnswersGleaner (.rdrop g) s g (fun x y =>
        y.sp = true ∧ x.GoesOn y ∧ { y with sp := x.sp, pc := x.pc, fault := x.fault } = x)) ∧
      (x.p (rs1Field w) = false → AnswersGleaner (.rdrop g) s g (fun x y =>
        y.cursor = x.cursor + min (x.g (rs1Field w)).toNat (sh.recs.length - x.cursor) ∧ x.GoesOn y ∧
        { y with cursor := x.cursor, pc := x.pc, fault := x.fault } = x)))

/-- Under the conditions of R161 and R152 alone (the gleaner issues the legal word and holds a sheaf), rnext, rctx and rdrop run
to their end: each answers the state in which the gleaner alone differs and goes on at the next instruction, whatever the
record, the index and the parity of the words read. -/
def Obligations.RecordInstructionsComplete : Prop :=
  ∀ (s : State) (g : Fin 128) (w : Nat) (errs : BitVec 3), (s.gleaner g).sheaf ≠ none →
    (s.Runs (.rnext g errs) g w →
      ∃ y, Sys2Proof.Machine.exec (.rnext g errs) s = .next (s.setGleaner g y) ∧ (s.gleaner g).GoesOn y ∧
        (s.gleaner g).cursor ≤ y.cursor ∧ (s.gleaner g).KeepsButGW y) ∧
    (s.Runs (.rctx g errs) g w →
      ∃ y, Sys2Proof.Machine.exec (.rctx g errs) s = .next (s.setGleaner g y) ∧ (s.gleaner g).GoesOn y ∧
        y.cursor = (s.gleaner g).cursor ∧ (s.gleaner g).KeepsButGW y) ∧
    (s.Runs (.rdrop g) g w →
      ∃ y, Sys2Proof.Machine.exec (.rdrop g) s = .next (s.setGleaner g y) ∧ (s.gleaner g).GoesOn y ∧
        (s.gleaner g).cursor ≤ y.cursor ∧ (s.gleaner g).KeepsButGW y)

/-- remit appends the wisp to the sheaf's output with POISON set when the wisp or SP is poisoned, takes an output page when its
last page is full, waits (nothing changes) while it may take none, and past 8,192 records counts the record as lost, and the
sheaf as capped at the first; pemit appends rs1 to the primitives or counts a poisoned one in PDROP; done passes the output to
the collector and lets the sheaf go. -/
def Obligations.OutputInstructions : Prop :=
  ∀ (s : State) (g : Fin 128) (w : Nat) (sh : Sheaf),
    let x := s.gleaner g
    let v : Rec128 := if x.wp (rs1Field w) || x.sp then x.w (rs1Field w) ||| BitVec.ofNat 128 (2 ^ 39) else x.w (rs1Field w)
    x.sheaf = some sh →
    (s.Runs (.remit g) g w →
      (8192 ≤ x.out.length →
        ∃ c y, exec (.remit g) s = .next (State.setGleaner { s with counters := c } g y) ∧
          (x.outCap = true → c = s.counters) ∧
          (x.outCap = false → Counted s { s with counters := c } (figIngress 1 sh.region 2) 1) ∧
          y.outLost = x.outLost + 1 ∧ y.outCap = true ∧ x.GoesOn y ∧
          { y with outLost := x.outLost, outCap := x.outCap, pc := x.pc, fault := x.fault } = x) ∧
      (x.out.length < 8192 → x.out.length ≠ x.pages * 256 → AnswersGleaner (.remit g) s g (fun x y =>
        y.out = x.out ++ [v] ∧ x.GoesOn y ∧ { y with out := x.out, pc := x.pc, fault := x.fault } = x)) ∧
      (x.out.length < 8192 → x.out.length = x.pages * 256 →
        s.core.usedOut < 192 ∨ (s.core.usedOut < 448 ∧ sh.epoch.toNat * 4096 + sh.slice.toNat = s.core.nextSl % 2 ^ 44) →
        ∃ y, exec (.remit g) s =
            .next (State.setGleaner
              { s with core := { s.core with
                  usedOut := s.core.usedOut + 1, lowOut := min s.core.lowOut (447 - s.core.usedOut) } } g y) ∧
          y.out = x.out ++ [v] ∧ y.pages = x.pages + 1 ∧ x.GoesOn y ∧
          { y with out := x.out, pages := x.pages, pc := x.pc, fault := x.fault } = x) ∧
      (x.out.length < 8192 → x.out.length = x.pages * 256 → 192 ≤ s.core.usedOut →
        448 ≤ s.core.usedOut ∨ sh.epoch.toNat * 4096 + sh.slice.toNat ≠ s.core.nextSl % 2 ^ 44 → exec (.remit g) s = .next s)) ∧
    (s.Runs (.pemit g) g w →
      AnswersGleaner (.pemit g) s g (fun x y =>
        (y.prims = if x.p (rs1Field w) || x.sp then x.prims else x.prims ++ [x.g (rs1Field w)]) ∧
        (y.pdrop = if x.p (rs1Field w) || x.sp then x.pdrop + 1 else x.pdrop) ∧ x.GoesOn y ∧
        { y with prims := x.prims, pdrop := x.pdrop, pc := x.pc, fault := x.fault } = x)) ∧
    (s.Runs (.done g) g w →
      ∃ (d : DoneSheaf) (y : Gleaner),
        exec (.done g) s = .next (State.setGleaner { s with core := { s.core with done := s.core.done ++ [d] } } g y) ∧
        d.region = sh.region ∧ d.seq = sh.epoch.toNat * 4096 + sh.slice.toNat ∧ d.recs = x.out ∧ d.prims = x.prims ∧
        d.pdrop = x.pdrop ∧ d.nlost = sh.nlost + x.outLost ∧ d.hold = sh.hold ∧ d.forced = (sh.forced || sh.cap || x.outCap) ∧
        d.pages = sh.pages ∧ d.outPages = x.pages ∧ x.GoesOn y ∧
        y.sheaf = none ∧ y.out = [] ∧ y.prims = [] ∧ y.pdrop = 0 ∧ y.outLost = 0 ∧ y.outCap = false ∧ y.watch = 0 ∧ y.cursor = 0 ∧ y.pages = 0 ∧
        y.regs = x.regs ∧ y.pg = x.pg ∧ y.wisps = x.wisps ∧ y.pw = x.pw ∧ y.sp = x.sp ∧ y.replies = x.replies)

/-- waitev with rs1 = 0 or a reply present gives the events present at once, and otherwise waits; at its timeout the gleaner
goes on with the events present, 0 for none. mail puts its message into the mailbox, poisoned when an operand or the sheaf is,
and waits while the mailbox holds 64; mrecv gives the oldest reply and waits while there is none. At TABLE_RELOAD_DONE a gleaner
that stalls on a table read runs that read again with the table's contents, unless the line of the live copy that it reads is
poisoned: it then goes on with a poisoned result. For a gleaner that stalls on no read, a poisoned line is that of its
instruction word: a FETCH fault. A poisoned reload is counted and is a local error of the active hub. -/
def Obligations.WaitsMailAndReloads : Prop :=
  (∀ (s : State) (g : Fin 128) (w : Nat),
     let x := s.gleaner g
     (s.Runs (.waitev g) g w →
       let b := if w.testBit 1 ∧ x.replies ≠ [] then 2 else 0
       (x.g (rs1Field w) = 0 ∨ b ≠ 0 → GivesRd (.waitev g) s g (rdField w) (BitVec.ofNat 64 b) false) ∧
       (x.g (rs1Field w) ≠ 0 → b = 0 →
         exec (.waitev g) s = .next (s.setGleaner g { x with wait := .event (BitVec.ofNat 2 w) (rdField w) }))) ∧
     (∀ m rd, rd < 32 → s.awake = true → s.gleanerUp g = true → x.wait = .event m rd →
       AnswersGleaner (.waitevTimeout g) s g (fun x y =>
         x.WritesG y rd (if m.getLsbD 1 ∧ x.replies ≠ [] then 2 else 0) false ∧ y.wait = .run ∧ x.GoesOn y ∧
         x.KeepsButG { y with wait := x.wait })) ∧
     (s.Runs (.mail g) g w →
       (64 ≤ s.core.mailbox.length → exec (.mail g) s = .next s) ∧
       (s.core.mailbox.length < 64 →
         ∃ m y, exec (.mail g) s = .next (State.setGleaner { s with core := { s.core with mailbox := s.core.mailbox ++ [m] } } g y) ∧
           m.gleaner = g ∧ m.lo = x.g (rs1Field w) ∧ m.hi = x.g (rs2Field w) ∧
           (∀ sh, x.sheaf = some sh → m.seq = sh.epoch.toNat * 4096 + sh.slice.toNat) ∧
           m.poison = (x.p (rs1Field w) || x.p (rs2Field w) || x.sp) ∧ x.GoesOn y ∧ { y with pc := x.pc, fault := x.fault } = x)) ∧
     (s.Runs (.mrecv g) g w →
       (x.replies = [] → exec (.mrecv g) s = .next s) ∧
       ∀ r rest, x.replies = r :: rest →
         AnswersGleaner (.mrecv g) s g (fun x y =>
           x.WritesG y (rdField w) r false ∧ y.replies = rest ∧ x.GoesOn y ∧ x.KeepsButG { y with replies := x.replies }))) ∧
  (∀ (s : State) (g : Fin 128),
     let x := s.gleaner g
     let op := opField (s.codeWord x.pc)
     let rd := rdField (s.codeWord x.pc)
     let s' := s.setGleaner g { x with wait := .run }
     let a := s.red.active
     let reload := Instr.tableReloadDone g
     let fails := fun (n : Nat) (P : Gleaner → Prop) =>
       ∃ c r y, exec reload s = .next (State.setGleaner { s with counters := c, red := r, free := s.free + n } g y) ∧ P y ∧
         Counted s { s with counters := c } (figMem a 4) 1 ∧
         (State.hubRed { s with red := r } a).errs = (s.hubRed a).errs ++ [(.tspoison, s.clock.step)]
     s.awake = true → s.loaded = true → s.gleanerUp g = true → x.fault = none →
       (x.wait = .reload →
         (s.reloadPoisoned g = false →
           (op = 0x23 → exec reload s = exec (.lut g false) s') ∧ (op = 0x24 → exec reload s = exec (.wlut g false) s') ∧
           (op = 0x25 → exec reload s = exec (.curve g false) s') ∧ (op = 0x34 → exec reload s = exec (.ld g false) s') ∧
           (op = 0x36 → exec reload s = exec (.wld g false) s')) ∧
         (s.reloadPoisoned g = true → op = 0x23 ∨ op = 0x25 ∨ op = 0x34 →
           ∃ v, fails 1 (fun y => Gleaner.WritesG { x with wait := .run } y rd v true ∧
             Gleaner.GoesOn { x with wait := .run } y ∧ Gleaner.KeepsButG { x with wait := .run } y)) ∧
         (s.reloadPoisoned g = true → (op = 0x24 ∨ op = 0x36) ∧ rd < 4 →
           ∃ v, fails 1 (fun y => Gleaner.WritesW { x with wait := .run } y rd v true ∧
             Gleaner.GoesOn { x with wait := .run } y ∧ Gleaner.KeepsButW { x with wait := .run } y))) ∧
       (x.wait ≠ .reload →
         (s.reloadPoisoned g = false → exec reload s = .next s) ∧
         (s.reloadPoisoned g = true → fails 0 (fun y => y = { x with fault := some (6, x.pc) }))))

/-- A gleaner instruction changes no other gleaner, no other gleaner's local memory, no other cluster's data, no table, and
nothing of the node outside the gleaner memories, the hub core and the counters of QUERY. -/
def Obligations.GleanersAreIsolated : Prop :=
  ∀ (s t : State) (i : Instr) (f : Form), instrForm i = some f → exec i s = .next t →
    t = { s with core := t.core, gmem := t.gmem, counters := t.counters } ∧
    (∀ g', g' ≠ f.g.val → t.gleaner g' = s.gleaner g') ∧
    (∀ g' a, g' < 128 → g' ≠ f.g.val → a < 0x10000 →
      byteAt t.gmem.bytes (storeAddr g' 0 a) = byteAt s.gmem.bytes (storeAddr g' 0 a)) ∧
    (∀ g' a, g' < 128 → g' / 8 ≠ f.g.val / 8 → 0x20000 ≤ a → a < 0x80000 →
      byteAt t.gmem.bytes (storeAddr g' 1 a) = byteAt s.gmem.bytes (storeAddr g' 1 a))

/-! ### The channel cells and TDCs -/

/-- An accepted leading edge starts a hit: the start is stamped with the coarse time and the fine value of the map in force, its
raw code is counted in the histogram when HSRC and the exclusion allow, and a map read that fails parity marks the map bad, logs
MAPFIX and requests the seed map. An edge at a cell that waits for a hold slot is counted as blocked. A channel that is
disabled, whose discriminator is already high, or outside ACTIVE, ignores it. Nothing else changes. A hit ends by its trailing
edge, by the hit length limit or by the peak found in low gain: the peak goes to the lowest free hold slot with the ToT and
flags of R68 and R44, and the reset switch closes; the limit ends a switched pulse whatever its discriminator. A trailing edge
outside an unswitched hit only lowers the discriminator. No other cell changes. -/
def Obligations.HitsStartAndEndInAHoldSlot : Prop :=
  (∀ (s : State) (ch : Fin 4096) (tick : BitVec 12) (code : Fin 513) (pf : Bool),
     let c := s.cell ch
     let f := s.fe (ch / 512)
     let m := s.tdc ch
     let now := s.coarse tick
     (s.awake = false ∨ c.word.vote.getLsbD 31 = false ∨ c.disc = true → exec (.leadingEdge ch tick code pf) s = .next s) ∧
     (s.awake = true → c.word.vote.getLsbD 31 = true → c.disc = false → c.phase = .waitSlot →
       Answers (.leadingEdge ch tick code pf) s (fun t =>
         t = { s with cells := t.cells, counters := t.counters } ∧ t.cell ch = { c with disc := true } ∧
         (∀ k, k ≠ ch.val → t.cell k = s.cell k) ∧ Counted s t (figBlocks 1 (ch / 64)) 1)) ∧
     (s.awake = true → c.word.vote.getLsbD 31 = true → c.disc = false → c.phase = .armed → s.masked (ch / 64) = false →
       f.stopped = false → (∀ t, c.settle = some t → t ≤ now) → (∀ t, c.dither = some t → t ≤ now) →
       Answers (.leadingEdge ch tick code pf) s (fun t =>
         t.cell ch = { c with
           disc := true, phase := .hit, start := now, switchAt := none
           startFine := min 511 ((centreOf (m.mapOf (now / 4096)) code + 16) / 32)
           startHold := (match f.hold with
             | some h => decide (h ≤ now)
             | none => false)
           startBad := pf || m.bad } ∧
         (∀ k, k ≠ ch.val → t.cell k = s.cell k ∧ t.tdc k = s.tdc k) ∧
         t.tdc ch =
           (let n := if (f.hsrc = 0 ∨ f.hsrc = 2) ∧ f.excluded now = false then
               { m with hist := Tbl.set 0 m.hist (min code 511) (Tbl.get 0 m.hist (min code 511) + 1), total := m.total + 1
                        hitsNow := m.hitsNow + 1 }
             else m
           if pf then { n with bad := true } else n) ∧
         (pf = false → t = { s with cells := t.cells, tdcs := t.tdcs }) ∧
         (pf = true → Raised s t 0x1002 ∧ t.lane (ch / 512) s.red.active = s.lane (ch / 512) s.red.active ++ [.seedMap ch false])))) ∧
  (∀ (s : State) (ch : Fin 4096) (tick : BitVec 12) (code : Fin 513) (peak : Int) (i : Nat),
     let c := s.cell ch
     let now := s.coarse tick
     let captured := fun (cmd : Instr) (tot : Nat) (flags : BitVec 8) (at_ : Nat) (disc : Bool) =>
       ∃ h c', exec cmd s = .next (s.setCell ch c') ∧
         h.start = c.start ∧ h.fine = c.startFine ∧ h.tot = tot ∧ h.flags = flags ||| flagBit 5 c.startHold ∧ h.peak = peak ∧
         h.poison = c.startBad ∧ h.granted = false ∧ c'.slot i = some h ∧ (∀ j, j < 4 → j ≠ i → c'.slot j = c.slot j) ∧
         c'.phase = .reset ∧ c'.disc = disc ∧ c'.capAt = at_ ∧ c'.resetAt = at_ + (resetOf c.w + 1) * 32 ∧ c'.word = c.word ∧
         c'.waiting = c.waiting ∧ c'.due = c.due ∧ c'.settle = c.settle
     s.live = true → c.freeSlot = some i →
     (c.phase = .hit →
       ∀ d, d = rawDiff c.start c.startFine now (fineOf (centreOf ((s.tdc ch).mapOf (c.start / 4096)) code)) →
         let ends := fun (tot : Nat) (flags : BitVec 8) =>
           captured (.trailingEdge ch tick code peak false) tot (flags ||| flagBit 0 (gainOf c.w == 1)) (4 * (now / 4 + 2)) false
         (d < 0 → ends 0 0x10) ∧ (0 ≤ d → d ≤ 3 → ends 0 0x08) ∧ (4 ≤ d → d ≤ 65531 → ends (d / 4).toNat 0x04) ∧
         (65532 ≤ d → ends 16383 0x44)) ∧
     (c.phase = .hit → Answers (.trailingEdge ch tick code peak true) s (fun t =>
       (∃ h, (t.cell ch).slot i = some h ∧ h.poison = true ∧ h.peak = peak) ∧ (t.cell ch).phase = .reset ∧
       (t.tdc ch).bad = true ∧ Raised s t 0x1002)) ∧
     (∀ pf, c.phase ≠ .hit → exec (.trailingEdge ch tick code peak pf) s = .next (s.setCell ch { c with disc := false })) ∧
     (c.phase = .hit → c.disc = true → 4 * (c.start / 4 + c.hitlim) ≤ now →
       captured (.hitLengthLimit ch tick peak) 16383 (0x44 ||| flagBit 0 (gainOf c.w == 1)) (4 * (c.start / 4 + c.hitlim)) true) ∧
     (c.phase = .switched ∨ c.phase = .peakArmed → 4 * (c.start / 4 + c.hitlim) ≤ now →
       captured (.hitLengthLimit ch tick peak) 0 0x03 (4 * (c.start / 4 + c.hitlim)) c.disc) ∧
     (c.phase = .peakArmed → captured (.peakFound ch tick peak) 0 0x03 (4 * (now / 4 + 1)) c.disc))

/-- The timed steps of a cell: the range switch of an AUTO cell (which takes back a stop whose peak is not captured yet, R44),
the arming of the peak-found comparator 8 ticks later, the end of the reset (with the settings that waited for it), the re-arm
(into the wait for a hold slot when none is free) and the end of settling; each changes that cell alone. -/
def Obligations.CellTimersMoveThePhase : Prop :=
  ∀ (s : State) (ch : Fin 4096) (tick : BitVec 12),
    let c := s.cell ch
    let now := s.coarse tick
    let becomes := fun (cmd : Instr) (c' : Cell) => exec cmd s = .next (s.setCell ch c')
    s.live = true →
    (c.phase = .hit → gainOf c.w = 2 → becomes (.rangeSwitch ch tick) { c with phase := .switched, switchAt := some now }) ∧
    (gainOf c.w ≠ 2 ∨ (c.phase ≠ .hit ∧ (c.phase ≠ .reset ∨ c.switchAt ≠ none ∨ c.capAt ≤ now)) → becomes (.rangeSwitch ch tick) c) ∧
    (∀ i h, gainOf c.w = 2 → c.phase = .reset → c.switchAt = none → now < c.capAt → i < 4 → c.slot i = some h → h.age + 1 = c.age →
      (∀ j h', j < i → c.slot j = some h' → h'.age + 1 ≠ c.age) →
      ∃ c', becomes (.rangeSwitch ch tick) c' ∧ c'.phase = .switched ∧ c'.switchAt = some now ∧ c'.slot i = none ∧
        (∀ j, j < 4 → j ≠ i → c'.slot j = c.slot j) ∧ c'.start = c.start ∧ c'.startFine = c.startFine ∧ c'.disc = c.disc) ∧
    (∀ t, c.phase = .switched → c.switchAt = some t → t + 8 ≤ now →
      becomes (.peakFoundArmed ch tick) { c with phase := .peakArmed }) ∧
    (c.phase = .reset → c.resetAt ≤ now → c.due = none → c.waitRegion = none →
      becomes (.resetEnd ch tick) { c with phase := .settling, rearmAt := c.resetAt + 7, switchAt := none }) ∧
    (∀ w, c.phase = .reset → c.resetAt ≤ now → c.due = some w →
      ∃ c', becomes (.resetEnd ch tick) c' ∧ c'.phase = .settling ∧ c'.rearmAt = c.resetAt + 7 ∧ c'.word.vote = w ∧
        c'.due = none ∧ c'.waitRegion = none ∧ c'.waiting = c.waiting) ∧
    (∀ r, c.phase = .reset → c.resetAt ≤ now → c.waitRegion = some r →
      ∃ c', becomes (.resetEnd ch tick) c' ∧ c'.phase = .settling ∧ c'.trange = r.1 ∧ c'.hitlim = r.2 ∧ c'.waitRegion = none) ∧
    (c.phase = .settling → c.rearmAt ≤ now → (∃ i, i < 4 ∧ c.slot i = none) →
      becomes (.rearm ch tick) { c with phase := .armed }) ∧
    (c.phase = .settling → c.rearmAt ≤ now → (∀ i, i < 4 → c.slot i ≠ none) →
      becomes (.rearm ch tick) { c with phase := .waitSlot }) ∧
    (∀ t, c.settle = some t → t ≤ now → becomes (.settleEnd ch tick) { c with settle := none }) ∧
    (∀ t, c.dither = some t → t ≤ now → becomes (.ditherEnd ch tick) { c with dither := none })

/-- Maps and histograms: a seed map that has arrived waits in the inactive buffer, or outside it while the three slice
boundaries of the guard run; a full histogram is taken for a rebuild and cleared, and the block's rebuild unit serves its
waiting cells one at a time in channel order; the rebuilt map waits as a seed map does, or is discarded while a seed map waits;
the one dither entry of a period drives an idle cell's line for 4 ticks and is counted, and is dropped at any other cell. -/
def Obligations.MapsAndHistograms : Prop :=
  ∀ (s : State) (ch : Fin 4096),
    let m := s.tdc ch
    s.live = true →
    (∀ p, (s.fe (ch / 512)).mapIn.find? (fun p => p.1 == ch.val) = some p →
      Answers (.mapArrival ch true) s (fun t =>
        t = { s with fes := t.fes, tdcs := t.tdcs } ∧ (∀ k, k ≠ ch.val → t.tdc k = s.tdc k) ∧
        t.fe (ch / 512) = { s.fe (ch / 512) with mapIn := (s.fe (ch / 512)).mapIn.erase p } ∧
        (m.guard = 0 → t.tdc ch = { m with waiting := some ⟨true, p.2, s.seedMap ch, 0⟩, outside := none }) ∧
        (m.guard ≠ 0 → t.tdc ch = { m with outside := some ⟨true, p.2, s.seedMap ch, 0⟩ }))) ∧
    (∀ w, m.outside = some w → m.guard = 0 → w.seed = false →
      exec (.mapArrival ch false) s = .next (s.setTdc ch { m with waiting := some w, outside := none })) ∧
    (65536 ≤ m.total → ∃ u, exec (.histogramFull ch) s =
        .next ((s.setTdc ch { m with rebuild := some m.hist, hist := [], total := 0 }).setBlock (ch / 64)
          { s.block (ch / 64) with unit := u }) ∧
      (∀ k, (s.block (ch / 64)).unit = some k → (s.tdc (ch / 64 * 64 + k)).rebuild ≠ none → u = some k) ∧
      ((s.block (ch / 64)).unit = none → ∃ k, u = some k ∧ k ≤ ch % 64)) ∧
    (s.rebuilding (ch / 64) ≠ some (ch.val % 64) → exec (.rebuildDone ch) s = .next s) ∧
    (∀ counts, s.rebuilding (ch / 64) = some (ch.val % 64) → m.rebuild = some counts →
      let w : WaitMap :=
        ⟨false, false, some (rebuildCentres counts 512 0 []), residOf (mapDiff2 (rebuildCentres counts 512 0 []) m.active)⟩
      let seedWaits := (∃ x, m.waiting = some x ∧ x.seed = true) ∨ (∃ x, m.outside = some x ∧ x.seed = true)
      let gives := fun (m' : ChanTdc) => exec (.rebuildDone ch) s =
        .next ((s.setTdc ch m').setBlock (ch / 64)
          { s.block (ch / 64) with unit := (s.setTdc ch m').rebuilding (ch / 64) })
      (seedWaits → gives { m with rebuild := none }) ∧
      (¬seedWaits → m.guard = 0 → gives { m with rebuild := none, waiting := some w, outside := none }) ∧
      (¬seedWaits → m.guard ≠ 0 → gives { m with rebuild := none, outside := some w })) ∧
    (∀ (tick : BitVec 12) (code : Fin 513), s.node.pstate = .active → s.dithered ch = true →
      let now := s.coarse tick
      let period := 2 ^ ((s.fe (ch / 512)).dper + 7)
      let idle := (s.cell ch).phase = .armed ∧ (s.cell ch).disc = false ∧ s.masked (ch / 64) = false ∧ (s.cell ch).dither = none
      (∀ t, m.offered = some t → t / period = now / period → exec (.ditherEntry ch tick code) s = .next s) ∧
      ((∀ t, m.offered = some t → t / period ≠ now / period) →
        (¬idle → exec (.ditherEntry ch tick code) s = .next (s.setTdc ch { m with offered := some now })) ∧
        (idle → Answers (.ditherEntry ch tick code) s (fun t =>
          t = { s with cells := t.cells, tdcs := t.tdcs } ∧
          t.cell ch = { s.cell ch with dither := some (now + 4) } ∧
          (∀ k, k ≠ ch.val → t.cell k = s.cell k ∧ t.tdc k = s.tdc k) ∧
          t.tdc ch = if (s.fe (ch / 512)).excluded now = true then { m with offered := some now }
            else { m with
              hist := Tbl.set 0 m.hist (min code 511) (Tbl.get 0 m.hist (min code 511) + 1), total := m.total + 1
              offered := some now }))))

/-- What an FE die receives on a control lane: the oldest message that is not link flow leaves the lane; a setting, region, TDC
control, FE control or slice timing word, a seed map or a strobe from the active hub's lane takes its place in waiting, and from
the other lane has no effect (a strobe in fallow or frost is logged as INJSKIP); RETRAIN and the failure message act on their
own link, and records that only a failed link held leave the derandomiser. The setting sweep rewrites every word of a die from
its voted value, so a single upset of one copy of one word leaves every word as it was and is logged as SETFIX. -/
def Obligations.SettingsReachTheDies : Prop :=
  (∀ (s : State) (die : Fin 8) (h : Hub) (pre post : List LaneMsg),
     let f := s.fe die
     let u := s.setLane die h (pre ++ post)
     let own := fun (m : LaneMsg) (t : State) => s.lane die h = pre ++ m :: post →
       exec (.controlLaneReceive die h) s = .next (if h = s.red.active then t else u)
     s.live = true → (∀ x, x ∈ pre → x.flow = true) →
     (s.lane die h = pre → exec (.controlLaneReceive die h) s = .next s) ∧
     (∀ ch w, own (.setting ch w) (u.setCell ch { s.cell ch with waiting := some w })) ∧
     (∀ w, own (.region w) (u.setFe die { f with regionWait := some w })) ∧
     (∀ w, own (.tdcCtl w) (u.setFe die { f with tdcWait := some w })) ∧
     (∀ w, own (.feCtl w) (u.setFe die { f with feWait := some w })) ∧
     (∀ w, own (.atime w) (u.setFe die { f with atime := w })) ∧
     (s.node.pstate ≠ .fallow → s.node.pstate ≠ .frost → own .strobe (u.setFe die { f with strobe := true })) ∧
     (s.node.pstate = .fallow ∨ s.node.pstate = .frost → h = s.red.active → s.lane die h = pre ++ .strobe :: post →
       Answers (.controlLaneReceive die h) s (fun t => t.fes = s.fes ∧ Raised s t 0x1003)) ∧
     (∀ (ch : Fin 4096) band, (∀ p, p ∈ f.mapIn → p.1 ≠ ch.val) →
       own (.seedMap ch band) (u.setFe die { f with mapIn := f.mapIn ++ [(ch.val, band)] })) ∧
     (s.lane die h = pre ++ .retrain :: post →
       exec (.controlLaneReceive die h) s = .next (u.setFe die (f.setLink h { f.link h with heard := true }))) ∧
     (s.lane die h = pre ++ .failure :: post →
       ∃ g, exec (.controlLaneReceive die h) s = .next (u.setFe die g) ∧
         g.link h = { f.link h with failed := true, replay := [], resend := [], wire := [] } ∧ g.link h.other = f.link h.other ∧
         g.drBase + g.dr.length = f.drBase + f.dr.length ∧ ((f.link h.other).failed = true → g.dr = []) ∧
         ((f.link h.other).failed = false → f.drBase ≤ (f.link h.other).acked →
           (f.link h.other).acked ≤ f.drBase + f.dr.length → g.drBase = (f.link h.other).acked))) ∧
  (∀ (s : State) (die : Fin 8) (k : Nat) (copy : Fin 3) (x : BitVec 64),
     s.live = true → (s.fe die).sweep = true → (∀ ch, (s.cell ch).word.torn = false) → (s.fe die).region.torn = false →
     k ≤ 512 → (if k < 512 then x.setWidth 32 ≠ 0 else x ≠ 0) →
     Answers (.settingSweep die [(k, copy, x)]) s (fun t =>
       (∀ ch, t.cell ch = s.cell ch) ∧ t.fe die = { s.fe die with sweep := false } ∧ (∀ d, d ≠ die.val → t.fe d = s.fe d) ∧
       Raised s t 0x1001))

/-- Blanking: each die sees the level of BLANK at the REFCLK sample named, or at the next one where `late` lists it. The rise
starts the mask of a die two REFCLK periods later, or takes back the end of a mask whose guard still runs; at its start the mask
turns on and each selected block places a blank-start event with the cells that have a hit in progress then; the fall ends the
mask GUARD REFCLK periods after two more; at its end the mask turns off and the selected blocks begin to count idle cycles. A
due injection step is executed and places an injection event; a step that falls within 5,120 ticks of the one before, or outside
ACTIVE, is skipped with INJSKIP; one within 2,560 ticks of a change of TPDAC is moved behind it. -/
def Obligations.BlankingAndInjection : Prop :=
  (∀ (s : State) (n : BitVec 9) (late : BitVec 8) (tick : BitVec 12) (die : Fin 8),
     let first := s.coarse0 + 8 * n.toNat
     let seen := first + (if late.getLsbD die then 8 else 0)
     let now := s.coarse tick
     let f := s.fe die
     let guard := guardOf f.region.vote.toNat
     s.live = true →
     (s.node.blank = false → Answers (.blankRise n late) s (fun t =>
       t = { s with fes := t.fes, node := t.node, mon := t.mon, counters := t.counters } ∧
       t.node = { s.node with blank := true, blankAt := first } ∧ t.mon.blank = true ∧ t.mon.pause = true ∧
       (0 < guard → (∃ e, e ∈ f.maskEnd ∧ seen < e) → t.fe die = { f with maskEnd := f.maskEnd.dropLast }) ∧
       (guard = 0 ∨ (∀ e, e ∈ f.maskEnd → e ≤ seen) → t.fe die = { f with maskAt := f.maskAt ++ [seen + 16] }))) ∧
     (s.node.blank = true → Answers (.blankFall n late) s (fun t =>
       t = { s with fes := t.fes, node := t.node, mon := t.mon } ∧ t.node = { s.node with blank := false, blankAt := first } ∧
       t.mon.blank = false ∧ t.fe die = { f with maskEnd := f.maskEnd ++ [seen + 16 + 8 * guard] })) ∧
     (∀ at_ rest, f.maskAt = at_ :: rest → at_ ≤ now → Answers (.maskStart die tick) s (fun t =>
       ∃ evs, t = s.setFe die { f with mask := true, maskAt := rest, eventQ := f.eventQ ++ evs } ∧
         evs.map (fun e => (e.bits, e.slice)) =
           ((List.range 8).filter (fun b => (s.regionWord die).testBit (53 + b))).map (fun b =>
             (blankEvent b at_ (s.hitVector (die * 8 + b) at_), at_ / 4096)) ∧
         ∀ e, e ∈ evs → e.poison = none)) ∧
     (∀ at_ rest, f.maskEnd = at_ :: rest → f.mask = true → at_ ≤ now → Answers (.maskEnd die tick) s (fun t =>
       t = { s with fes := t.fes, blocks := t.blocks } ∧ t.fe die = { f with mask := false, maskEnd := rest } ∧
       (∀ d, d ≠ die.val → t.fe d = s.fe d) ∧
       ∀ b, b < 8 → t.block (die * 8 + b) =
         if (s.regionWord die).testBit (53 + b) then { s.block (die * 8 + b) with idleFrom := at_ }
         else s.block (die * 8 + b))) ∧
     (f.maskAt = [] → exec (.maskStart die tick) s = .next s) ∧ (f.maskEnd = [] → exec (.maskEnd die tick) s = .next s)) ∧
  (∀ (s : State) (die : Fin 8) (tick : BitVec 12) (due : Nat) (rest : List Nat),
     let f := s.fe die
     let settled := ∀ c, f.tpdacAt = some c → c + 2560 ≤ due
     let close := ∃ p, f.injAt = some p ∧ due < p + 5120
     s.live = true → f.injDue = due :: rest → due ≤ s.coarse tick →
     (s.node.pstate = .active → settled → ¬close → ∃ e : FeRec,
       exec (.injectionStep die tick) s =
         .next (s.setFe die { f with injDue := rest, injAt := some due, eventQ := f.eventQ ++ [e] }) ∧
       e.bits = injectEvent due (tpdacOf (s.regionWord die)) (injpolOf (s.regionWord die)) ∧ e.poison = none ∧
       e.slice = due / 4096) ∧
     (s.node.pstate ≠ .active ∨ (settled ∧ close) → Answers (.injectionStep die tick) s (fun t =>
       t.fe die = { f with injDue := rest } ∧ Raised s t 0x1003)) ∧
     (∀ c, s.node.pstate = .active → f.tpdacAt = some c → due < c + 2560 → c + 2560 ∉ rest →
       exec (.injectionStep die tick) s = .next (s.setFe die { f with injDue := rest ++ [c + 2560] })))

/-! ### The blocks, the regions and their links -/

/-- A grant gives the next waiting peak in round-robin order to the lowest free active ADC slice and reserves a FIFO entry; nine
FE logic cycles later the hold slot is free and a cell that waited for one is armed; 64 FE logic cycles after the grant, or 256
at the low-power rate, and in the order in which the block's conversions end, the conversion puts the hit record, with the
corrected and clamped code, into the reserved entry. The block ADC's spare slice and the FIFO reset: a block outside the mask
that has been idle for 64 FE logic cycles since its last grant, its mask or the return to ACTIVE takes a reference pair, which
occupies the offline slice and an active one for a conversion; a rotation after 4,096 pairs gives the offline slice its
least-squares line and sends the next one offline; FIFORST empties the FIFO and every conversion, passes a loss record with the
entries lost and logs the event. -/
def Obligations.ConversionsAndFifoReset : Prop :=
  (∀ (s : State) (blk : Fin 64) (i : Fin 17) (tick : BitVec 12) (err offErr : Int),
     let b := s.block blk
     let x := b.slice i
     let now := s.coarse tick
     s.live = true →
     (∀ k j h, s.node.pstate = .active → b.fifo.length + b.reserved < 256 → b.resetTo ≤ now → b.freeSlice now = some i.val →
       s.nextCell blk b.rr now = some (k, j, h) →
       Answers (.grant blk tick) s (fun t =>
         t = { s with blocks := t.blocks, cells := t.cells, counters := t.counters } ∧
         (∃ c, ((t.block blk).slice i).conv = some c ∧ c.cell = k ∧ c.slot = j ∧ c.held = h ∧ c.granted = now ∧
           c.freed = false ∧ c.low = b.low ∧ c.timing = x.timing ∧
           c.paired = (decide ((b.grants + 1) % 16 = 0) && b.offlineFree now)) ∧
         (t.block blk).rr = k ∧ (t.block blk).reserved = b.reserved + 1 ∧ (t.block blk).fifo = b.fifo ∧
         (∀ n, n ≠ i.val → (t.block blk).slice n = b.slice n) ∧ (∀ n, n ≠ blk.val → t.block n = s.block n) ∧
         t.cell (blk * 64 + k) = (s.cell (blk * 64 + k)).setSlot j (some { h with granted := true }) ∧
         (∀ n, n ≠ blk * 64 + k → t.cell n = s.cell n) ∧ Counted s t (figBlocks 2 blk) 1)) ∧
     (∀ c, x.conv = some c → c.freed = false → c.granted + 36 ≤ now →
       Answers (.holdSlotFreed blk i tick) s (fun t =>
         t = { s with blocks := t.blocks, cells := t.cells } ∧ ((t.block blk).slice i).conv = some { c with freed := true } ∧
         (t.cell (blk * 64 + c.cell)).slot (min c.slot 3) = none ∧
         ((s.cell (blk * 64 + c.cell)).phase = .waitSlot → (t.cell (blk * 64 + c.cell)).phase = .armed) ∧
         ((s.cell (blk * 64 + c.cell)).phase ≠ .waitSlot →
           (t.cell (blk * 64 + c.cell)).phase = (s.cell (blk * 64 + c.cell)).phase))) ∧
     (∀ c, x.conv = some c →
       let due := fun (c : Conv) => c.granted + (if c.low then 1024 else 256)
       let raw := adcCode c.held.peak err
       (c.freed = false ∨ now < due c → exec (.conversionComplete blk i tick err offErr) s = .next s) ∧
       (c.freed = true → due c ≤ now → (∀ p c', p ∈ b.slices → p.2.conv = some c' → due c ≤ due c') →
       ∃ e b', exec (.conversionComplete blk i tick err offErr) s = .next (s.setBlock blk b') ∧
         b'.fifo = b.fifo ++ [e] ∧ b'.reserved = b.reserved - 1 ∧ (b'.slice i).conv = none ∧
         (∀ n, n ≠ i.val → b'.slice n = b.slice n) ∧ b'.rr = b.rr ∧ b'.grants = b.grants ∧
         b'.pairs.n = b.pairs.n + c.paired.toNat ∧ b'.offline = b.offline ∧
         e.bits = hitRecord (blk % 8 * 64 + c.cell) c.held.start c.held.fine c.held.tot (x.correct raw)
           (c.held.flags ||| flagBit 7 (raw == 4095)) i ∧
         e.slice = c.held.start / 4096 ∧ e.poison = if c.held.poison then some true else none))) ∧
  (∀ (s : State) (blk : Fin 64) (tick offRaw : BitVec 12),
     let b := s.block blk
     let p := b.pairs
     let now := s.coarse tick
     let den := p.n * p.sxx - p.sx * p.sx
     s.live = true →
     (∀ i, s.node.pstate = .active → s.masked blk = false → b.idleFrom + 256 ≤ now → (s.fe (blk / 8)).activeFrom + 256 ≤ now →
       b.freeSlice now = some i → b.offlineFree now = true →
       ∃ q, exec (.referencePair blk tick offRaw) s = .next (s.setBlock blk { b with
           pairs := q, level := (b.level + 1) % 4, refPair := some (i, now + (if b.low then 1024 else 256)) }) ∧
         q.n = p.n + 1 ∧ q.sx = p.sx + offRaw.toNat ∧ q.sy = p.sy + Config.refLevelCode b.level) ∧
     (4096 ≤ p.n → den ≠ 0 → b.offline < 17 →
       ∃ b', Answers (.rotationStep blk) s (fun t =>
           t = { s with blocks := t.blocks, fes := t.fes } ∧ t.block blk = b' ∧ (∀ k, k ≠ blk.val → t.block k = s.block k) ∧
           t.fe (blk / 8) = { s.fe (blk / 8) with calqAdc := (s.fe (blk / 8)).calqAdc.add blk b'.mismatch }) ∧ b'.offline = (b.offline + 1) % 17 ∧
         b'.pairs = PairSums.zero ∧ (b'.slice b.offline).off = p.sy * p.sxx - p.sx * p.sxy ∧
         (b'.slice b.offline).mul = p.n * p.sxy - p.sx * p.sy ∧ (b'.slice b.offline).den = den ∧ b'.fifo = b.fifo ∧
         (∀ n, n < 17 → (b'.slice n).timing = (s.fe (blk / 8)).atime ∧ (b'.slice n).conv = (b.slice n).conv)) ∧
     (4096 ≤ p.n → den = 0 → Answers (.rotationStep blk) s (fun t =>
       (t.block blk).offline = (b.offline + 1) % 17 ∧ (t.block blk).pairs = PairSums.zero ∧ (t.block blk).fifo = b.fifo)) ∧
     (p.n < 4096 → exec (.rotationStep blk) s = .next s) ∧
     Answers (.fifoRst blk tick) s (fun t =>
       (t.block blk).fifo = [] ∧ (t.block blk).reserved = 0 ∧ (t.block blk).resetTo = now + 16 ∧
       (∀ n, n < 17 → ((t.block blk).slice n).conv = none) ∧ (∀ n, n ≠ blk.val → t.block n = s.block n) ∧
       (∃ e, (t.fe (blk / 8)).lossQ = (s.fe (blk / 8)).lossQ ++ [e] ∧
         e.bits = lossRecord (blk % 8) now (b.fifo.length + b.reserved) ∧ e.slice = now / 4096) ∧
       Counted s t (figBlocks 5 blk) 1 ∧ Raised s t 0x1004))

/-- The region arbiter writes into the derandomiser in the order loss records, events, block FIFOs, at most two records and no
FIFO twice, and last a slice marker that is due; nothing is written into a full derandomiser. (Stated for links that take
records and have acknowledged nothing that is held, so that the write discards nothing.) The slice marker of the next slice,
with its epoch, slice, count and HOLD bit, is due once the slice is over, nothing of it is held unwritten and the marker before
it is written; it is written at once when no other record waits for the arbiter, and waits behind those otherwise; DRRST empties
the derandomiser and passes a loss record that counts the records that no frame holds; LAG_RELEASE stops the link whose backlog
exceeds the other's by more than LAG, as a persistent failure (RLINK). -/
def Obligations.ArbiterAndDerandomiser : Prop :=
  (∀ (s : State) (die : Fin 8) (r q : FeRec),
     let f := s.fe die
     let fifo := fun (b : Nat) => (s.block (die * 8 + b)).fifo
     let writes := fun (l : List FeRec) => Answers (.derandomiserWrite die) s (fun t =>
       (t.fe die).dr = f.dr ++ l ∧ (t.fe die).drBase = f.drBase ∧ (∀ d, d ≠ die.val → t.fe d = s.fe d) ∧
       t = { s with fes := t.fes, blocks := t.blocks })
     s.live = true → f.linkA.failed = false → f.linkB.failed = false → f.linkA.acked ≤ f.drBase → f.linkB.acked ≤ f.drBase →
     (131072 ≤ f.dr.length → exec (.derandomiserWrite die) s = .next s) ∧
     (f.dr.length + 1 < 131072 →
       (∀ l, f.lossQ = r :: q :: l → writes [r, q]) ∧
       (∀ l, f.lossQ = [r] → f.eventQ = q :: l → writes [r, q]) ∧
       (∀ l, f.lossQ = [] → f.eventQ = r :: q :: l → writes [r, q]) ∧
       (∀ b l, b < 8 → f.lossQ = [] → f.eventQ = [] → fifo b = r :: l → (∀ c, c < 8 → c ≠ b → fifo c = []) →
         (f.markQ = [] → writes [r]) ∧ (f.markQ = [q] → writes [r, q])) ∧
       (∀ b c l m, b < c → c < 8 → f.lossQ = [] → f.eventQ = [] → f.rrFifo = 7 → fifo b = r :: l → fifo c = q :: m →
         (∀ e, e < 8 → e ≠ b → e ≠ c → fifo e = []) → writes [r, q]) ∧
       (f.lossQ = [] → f.eventQ = [] → (∀ c, c < 8 → fifo c = []) →
         (f.markQ = [] → exec (.derandomiserWrite die) s = .next s) ∧ (f.markQ = [r] → writes [r])))) ∧
  (∀ (s : State) (die : Fin 8) (h : Hub) (tick : BitVec 12),
     let f := s.fe die
     let n := f.nextMarker
     s.live = true →
     (n < s.fullSlice → f.stopped = false → f.markQ = [] → s.holdsSlice die n = false →
       ∃ g r, exec (.sliceMarkerDue die) s = .next (s.setFe die g) ∧ g.nextMarker = n + 1 ∧ r.poison = none ∧ r.slice = n ∧
         r.bits = BitVec.ofNat 96 (3 * 2 ^ 92 + n / 4096 % 2 ^ 32 * 2 ^ 60 + n % 4096 * 2 ^ 48 +
           Tbl.get 0 f.counts n % 2 ^ 24 * 2 ^ 24 + (f.holdover n).toNat * 2 ^ 23) ∧
         (f.lossQ ≠ [] ∨ f.eventQ ≠ [] ∨ (∃ b, b < 8 ∧ (s.block (die * 8 + b)).fifo ≠ []) ∨ 131072 ≤ f.dr.length →
           g.dr = f.dr ∧ g.markQ = [r]) ∧
         (f.lossQ = [] → f.eventQ = [] → (∀ b, b < 8 → (s.block (die * 8 + b)).fifo = []) → f.dr.length < 131072 →
           f.linkA.failed = false → f.linkB.failed = false → f.linkA.acked ≤ f.drBase → f.linkB.acked ≤ f.drBase →
           g.dr = f.dr ++ [r] ∧ g.markQ = [])) ∧
     (s.fullSlice ≤ n ∨ f.markQ ≠ [] ∨ s.holdsSlice die n = true → exec (.sliceMarkerDue die) s = .next s) ∧
     Answers (.drRst die tick) s (fun t =>
       (t.fe die).dr = [] ∧ (t.fe die).drBase = f.drEnd ∧ (t.fe die).linkA.read = f.drEnd ∧ (t.fe die).linkB.read = f.drEnd ∧
       (∀ d, d ≠ die.val → t.fe d = s.fe d) ∧ Raised s t 0x1005 ∧
       ∃ e, (t.fe die).lossQ = f.lossQ ++ [e] ∧
         e.bits = lossRecord 8 (s.coarse tick) (f.drEnd - max (max f.linkA.read f.linkB.read) f.drBase)) ∧
     (s.node.simplex = false → (f.link h).failed = false → (f.link h.other).failed = false →
       f.backlog h.other + f.lag * 8192 < f.backlog h → Answers (.lagRelease die h) s (fun t =>
         (t.link die h).failed = true ∧ t.link die h.other = f.link h.other ∧
         ((f.link h).hubFailed = true → t = { s with fes := t.fes }) ∧
         ((f.link h).hubFailed = false → (t.link die h).hubFailed = true ∧ Raised s t 0x600D ∧
           (t.hubRed h).errs = (s.hubRed h).errs ++ [(.rlink die, s.clock.step)]))))

/-- A region link sends: a frame to be sent again goes first, else a new frame of up to 42 records padded with fillers takes the
next sequence number; it sends nothing while paused, retraining, failed, or with 32 frames unacknowledged. An alignment marker
advances the marker sequence, and the hub keeps whether the four lanes' sequences disagreed. A region link receives: a good
frame with the expected number is acknowledged and the next is expected; a good frame with another number is dropped; the hub
keeps the DRHI bit of every good trailer, and reads no frame of a link that it retrains or has declared failed; a frame with a
detected error is refused with NAK, and the fourth failure in a row declares the link failed. ACK frees the frames up to the one
acknowledged; NAK and the acknowledgement timeout send again from the failed or oldest frame on; PAUSE and RESUME hold and
release the sender. -/
def Obligations.RegionFramesAreSentAndAcknowledged : Prop :=
  (∀ (s : State) (die : Fin 8) (h : Hub) (seqs : List (BitVec 16)) (q : BitVec 16) (skew : Nat),
     let f := s.fe die
     let l := f.link h
     let recs := ((f.dr.drop (l.read - f.drBase)).take 42).map FeRec.sent
     s.awake = true →
     (l.failed = true ∨ l.paused = true ∨ l.heard = true → exec (.frameSend die h) s = .next s) ∧
     (l.failed = false → l.paused = false → l.heard = false →
       (∀ x rest, l.resend = x :: rest →
         let y : Frame := { x with sent := x.sent + 1, drhi := f.drhi }
         exec (.frameSend die h) s = .next (s.setLink die h { l with
           wire := l.wire ++ [y], resend := rest, replay := l.replay.map (fun z => if z.seq = x.seq then y else z) })) ∧
       (l.resend = [] → 32 ≤ l.replay.length → exec (.frameSend die h) s = .next s) ∧
       (l.resend = [] → l.replay.length < 32 → ∃ y, exec (.frameSend die h) s =
           .next (s.setLink die h { l with
             seq := l.seq + 1, read := max l.read f.drBase + recs.length, replay := l.replay ++ [y], wire := l.wire ++ [y] }) ∧
         y.seq = l.seq ∧ y.drhi = f.drhi ∧ y.sent = 1 ∧ y.held = recs.length ∧ y.upto = max l.read f.drBase + recs.length ∧
         y.recs.length = 42 ∧ y.recs.take recs.length = recs ∧
         ∀ r, r ∈ y.recs.drop recs.length → r = BitVec.ofNat 96 (0xF * 2 ^ 92))) ∧
     (skew ≤ 32 → exec (.alignmentMarker die h [0, 1, 2, 3] [q, q, q, q] skew) s =
       .next (s.setLink die h { l with marker := l.marker + 1, torn := false })) ∧
     (skew ≤ 32 → l.torn = false → (∃ x, x ∈ seqs ∧ ∃ y, y ∈ seqs ∧ x ≠ y) →
       exec (.alignmentMarker die h [0, 1, 2, 3] seqs skew) s =
         .next (s.setLink die h { l with marker := l.marker + 1, torn := true }))) ∧
  (∀ (s : State) (die : Fin 8) (h : Hub) (err : BitVec 4096) (bad : List (Nat × Fin 3)) (seq : BitVec 12),
     let f := s.fe die
     let l := f.link h
     s.live = true →
     (∀ x rest, l.wire = x :: rest → l.retrain = true ∨ l.hubFailed = true →
       exec (.frameReceive die h err bad) s = .next (s.setLink die h { l with wire := rest })) ∧
     (∀ x rest, l.wire = x :: rest → l.retrain = false → l.hubFailed = false → l.waitRetry = none →
       let good := err = 0 ∨ undetected err = true
       let seq' := x.seq ^^^ BitVec.ofNat 12 (err.toNat / 2 ^ 4044)
       let drhi' := x.drhi != err.getLsbD 4043
       (good → seq' = l.expect → Answers (.frameReceive die h err bad) s (fun t =>
         t = { s with fes := t.fes, lanes := t.lanes, red := t.red } ∧
         t.link die h = { l with wire := rest, expect := l.expect + 1, failRow := 0, hubDrhi := drhi' } ∧
         t.lane die h = s.lane die h ++ [.ack seq'])) ∧
       (good → seq' ≠ l.expect →
         exec (.frameReceive die h err bad) s = .next (s.setLink die h { l with wire := rest, hubDrhi := drhi' })) ∧
       (¬good → l.failRow < 3 → Answers (.frameReceive die h err bad) s (fun t =>
         t = { s with fes := t.fes, lanes := t.lanes } ∧
         t.link die h = { l with wire := rest, waitRetry := some l.expect, failRow := l.failRow + 1 } ∧
         t.lane die h = s.lane die h ++ [.nak l.expect])) ∧
       (¬good → 3 ≤ l.failRow → Answers (.frameReceive die h err bad) s (fun t =>
         t.lane die h = s.lane die h ++ [.nak l.expect, .failure] ∧ (t.link die h).hubFailed = true ∧ Raised s t 0x600D))) ∧
     (∀ x rest q, l.wire = x :: rest → l.retrain = false → l.hubFailed = false → l.waitRetry = some q →
       (x.sent = 1 → exec (.frameReceive die h err bad) s = .next (s.setLink die h { l with wire := rest })) ∧
       (x.seq ≠ q → err = 0 → exec (.frameReceive die h err bad) s = .next (s.setLink die h { l with wire := rest })) ∧
       (x.seq = q → x.sent ≠ 1 → q = l.expect → err = 0 → Answers (.frameReceive die h err bad) s (fun t =>
         t.link die h =
           { l with wire := rest, expect := q + 1, failRow := 0, waitRetry := none, hubDrhi := x.drhi } ∧
         t.lane die h = s.lane die h ++ [.ack q]))) ∧
     (∀ x, .ack seq ∈ s.lane die h → l.replay.find? (fun y => y.seq == seq) = some x →
       Answers (.ack die h seq) s (fun t =>
         t = { s with fes := t.fes, lanes := t.lanes } ∧ t.lane die h = (s.lane die h).erase (.ack seq) ∧
         (t.link die h).acked = max l.acked x.upto ∧
         (t.link die h).replay = l.replay.filter (fun y => laterMod 12 y.seq.toNat seq.toNat) ∧
         t.link die h.other = f.link h.other)) ∧
     (.nak seq ∈ s.lane die h → l.failed = false → l.retries + 1 < 2 ^ f.rlerr → Answers (.nak die h seq) s (fun t =>
       t = { s with fes := t.fes, lanes := t.lanes, counters := t.counters } ∧
       t.lane die h = (s.lane die h).erase (.nak seq) ∧
       t.link die h = { l with
         resend := l.replay.filter (fun y => reachedMod 12 y.seq.toNat seq.toNat), retries := l.retries + 1 })) ∧
     (s.node.pstate = .active → l.failed = false → l.paused = false → l.heard = false → l.replay ≠ [] →
       l.retries + 1 < 2 ^ f.rlerr → Answers (.ackTimeout die h) s (fun t =>
         t = { s with fes := t.fes, counters := t.counters } ∧
         t.link die h = { l with resend := l.replay, retries := l.retries + 1 })) ∧
     (.pause ∈ s.lane die h → Answers (.pause die h) s (fun t =>
       t = { s with fes := t.fes, lanes := t.lanes } ∧ t.lane die h = (s.lane die h).erase .pause ∧
       t.link die h = { l with paused := true })) ∧
     (.resume ∈ s.lane die h → Answers (.resume die h) s (fun t =>
       t = { s with fes := t.fes, lanes := t.lanes } ∧ t.lane die h = (s.lane die h).erase .resume ∧
       t.link die h = { l with paused := false })))

/-- The first alignment loss of an epoch (also the marker that fails to arrive, a skew beyond 32 blocks, and markers that
disagree twice in a row) loses the frames on the lanes and starts a retraining, the second declares the link failed at the hub;
a retraining that the die has heard of ends with the equaliser result of each lane logged, and lets the link send its
unacknowledged frames again, or puts a failed link back from the write position on; a retraining that times out declares the
link failed. -/
def Obligations.AlignmentAndRetraining : Prop :=
  ∀ (s : State) (die : Fin 8) (h : Hub),
    let f := s.fe die
    let l := f.link h
    let lost := fun (m : RLink) (t : State) =>
      t.link die h = { m with hubFailed := true, hubDrhi := false } ∧ t.lane die h = s.lane die h ++ [.failure] ∧ Raised s t 0x600D
    let trained := fun (m : RLink) => Answers (.retrainingDone die h) s (fun t =>
      t = { s with fes := t.fes, hay := t.hay, pcie := t.pcie, node := t.node } ∧ t.link die h = m ∧
      ∃ evs, t.hay.fifo = s.hay.fifo ++ evs ∧ evs.length = 4 ∧ ∀ e, e ∈ evs → e.code = 0x900F)
    s.live = true →
    (l.hubFailed = false → l.retrain = false →
      let first := fun (m : RLink) (t : State) =>
        t = { s with fes := t.fes, lanes := t.lanes, counters := t.counters } ∧
        t.link die h = { m with aligns := m.aligns + 1, wire := [], retrain := true } ∧
        t.lane die h = s.lane die h ++ [.retrain] ∧ Counted s t (figBlocks 8 (die * 2 + h.idx)) 1
      let second := lost { l with aligns := l.aligns + 1, wire := [] }
      (l.aligns = 0 → Answers (.alignmentLoss die h) s (first l)) ∧
      (l.aligns = 0 → s.node.pstate = .active → Answers (.markerTimeout die h) s (first l)) ∧
      (∀ lanes seqs skew, l.aligns = 0 → s.node.pstate = .active →
        32 < skew ∨ (l.torn = true ∧ (∃ x, x ∈ seqs ∧ ∃ y, y ∈ seqs ∧ x ≠ y)) →
        Answers (.alignmentMarker die h lanes seqs skew) s (first { l with marker := l.marker + 1, torn := false })) ∧
      (1 ≤ l.aligns → Answers (.alignmentLoss die h) s second) ∧
      (1 ≤ l.aligns → s.node.pstate = .active → Answers (.markerTimeout die h) s second)) ∧
    (l.retrain = false ∨ l.heard = false → exec (.retrainingDone die h) s = .next s) ∧
    (l.retrain = true → l.heard = true →
      let m := { l with retrain := false, heard := false, hubFailed := false, torn := false, presets := s.linkPresets die h }
      (l.failed = false → trained { m with resend := l.replay, waitRetry := none }) ∧
      (l.failed = true → trained { m with
        failed := false, read := f.drEnd, acked := f.drEnd, expect := l.seq, waitRetry := none, failRow := 0 })) ∧
    (l.retrain = true → l.hubFailed = false →
      Answers (.retrainTimeout die h) s (lost { l with retrain := false, heard := false }))

/-! ### The commands of the host -/

/-- COMMAND_FETCH: the active hub reads 16 bytes at SQBASE + 16 × SQHEAD and advances SQHEAD; a good word starts as the ring's
command, or completes at once with the status of its refusal; a failed read completes with FAULT, stops the ring and sets ERR.
Without an enabled, non-empty ring, room in the completion ring, or the right to master the bus, nothing happens. A command on a
ring completes with one 8-byte completion word at CQBASE + 8 × CQTAIL, holding the phase, the ring, SQHEAD, the command's TAG,
DETAIL and the status code, and one MSI-X message on the ring's vector; CQTAIL advances and at the end of the ring wraps and
flips the phase; the ring then runs no command. Nothing else changes. -/
def Obligations.CommandsAreFetchedAndCompleted : Prop :=
  (∀ (s : State) (k : Fin 4) (word : BitVec 128),
     let r := s.cring k
     let ready := s.live = true ∧ s.node.mode ≠ .seed ∧ r.run = true ∧ r.cmd = none ∧ r.cqFull = false ∧
       r.sqhead ≠ r.sqtail ∧ s.mayMaster = true
     let head := (r.sqhead + 1) % 2 ^ (r.sqlog.toNat + 4)
     let read : Nat × Out := (s.clock.step, .readReq (r.sqbase.toNat / 4096 * 4096 + 16 * r.sqhead) 16)
     (¬ready → ∀ good, exec (.commandFetch k word good) s = .next s) ∧
     (ready → s.refusal word.toNat false = none → Answers (.commandFetch k word true) s (fun t =>
       t = { s with pcie := { s.pcie with rings := t.pcie.rings, fetched := s.pcie.fetched + 1, outQ := t.pcie.outQ } } ∧
       t.cring k = { r with sqhead := head, cmd := some ⟨word, 0, s.pcie.fetched, 0⟩ } ∧
       (∀ j, j ≠ k.val → t.cring j = s.cring j) ∧ ∃ more, t.pcie.outQ = s.pcie.outQ ++ read :: more ∧ more.length ≤ 1)) ∧
     (∀ st, ready → s.refusal word.toNat false = some st → Answers (.commandFetch k word true) s (fun t =>
       (t.cring k).cmd = none ∧ (t.cring k).sqhead = head ∧ (t.cring k).run = true ∧
       ∃ a b, t.pcie.outQ = s.pcie.outQ ++ [read, (s.clock.step, .write (r.cqbase.toNat / 4096 * 4096 + 8 * r.cqtail) a), b] ∧
         a.headD 0 = BitVec.ofNat 8 st.code)) ∧
     (ready → Answers (.commandFetch k word false) s (fun t =>
       (t.cring k).cmd = none ∧ (t.cring k).sqhead = head ∧ (t.cring k).run = false ∧ (t.cring k).err = true ∧
       ∃ a b, t.pcie.outQ = s.pcie.outQ ++ [read, (s.clock.step, .write (r.cqbase.toNat / 4096 * 4096 + 8 * r.cqtail) a), b] ∧
         a.headD 0 = 0x1F))) ∧
  (∀ (s : State) (k : Fin 4) (c : Cmd) (st : Status) (detail : Nat),
     let r := s.cring k
     let t := s.complete (.ring k) st detail
     let size := 2 ^ (r.cqlog.toNat + 4)
     r.cmd = some c → detail < 2 ^ 21 →
     (∃ q, t = { s with pcie := { s.pcie with rings := q, outQ := s.pcie.outQ ++
         [(s.clock.step, .write (r.cqbase.toNat / 4096 * 4096 + 8 * r.cqtail) (leBytes 8
           (r.phase.toNat * 2 ^ 63 + k * 2 ^ 61 + r.sqhead % 2 ^ 16 * 2 ^ 45 + c.word.toNat / 2 ^ 16 % 2 ^ 16 * 2 ^ 29 +
             detail * 2 ^ 8 + st.code))),
          (s.clock.step, .msix s.red.active r.vec.toNat)] } }) ∧
     (r.cqtail + 1 = size → t.cring k = { r with cmd := none, cqtail := 0, phase := !r.phase }) ∧
     (r.cqtail + 1 ≠ size → t.cring k = { r with cmd := none, cqtail := r.cqtail + 1 }) ∧
     ∀ j, j ≠ k.val → t.cring j = s.cring j)

/-- A completed step of a mode script starts the next step when it may run, ends the MODE with OK after the last step, and a
step that fails ends the MODE with its status and the step's index and, unless the MODE is to SAFE, enters SAFE. A step that
reads host memory requests its buffer; table writes of an ended script that still wait complete no later step. The steps of a
mode script: START and STOP ask for the next epoch boundary, RETRAIN begins a retraining of both links of each region in the
mask, RETURN_TO_REFCLK and LIFT_FENCE name the epoch at whose start they act (the next one when that epoch has begun), PROGEVT
raises its event; RETRAIN and PROGEVT complete at once, the others at their boundary. -/
def Obligations.ScriptsRunTheirCommands : Prop :=
  (∀ (s : State) (sc : Script) (k : Fin 4),
     let idle := fun (x : Option Script) => { s with node := { s.node with script := x } }
     let ended : State := { idle none with core := { s.core with
       tableDue := s.core.tableDue.map (fun d => if d.src = some .script then { d with src := none } else d) } }
     s.node.script = some sc → sc.src = .ring k →
     (∀ st d, st = .ok ∨ st = .warn →
       (sc.steps.length ≤ sc.idx + 1 →
         s.complete .script st d = ended.complete (.ring k) .ok 0) ∧
       ∀ w, sc.steps[sc.idx + 1]? = some w →
         let next := idle (some { sc with idx := sc.idx + 1, cmd := none })
         next.refusal w.toNat true = none →
         let started := idle (some { sc with idx := sc.idx + 1, cmd := some ⟨w, 0, s.pcie.fetched, 0⟩ })
         (readsHost w.toNat = false → s.complete .script st d = started) ∧
         (readsHost w.toNat = true → s.complete .script st d = started.emit (.readReq (arg1 w.toNat) 0))) ∧
     (∀ st d, st ≠ .ok → st ≠ .warn →
       (sc.toSafe = true → s.complete .script st d = ended.complete (.ring k) st sc.idx) ∧
       (sc.toSafe = false → s.complete .script st d = (ended.complete (.ring k) st sc.idx).enterSafe))) ∧
  (∀ (s : State) (w : Nat),
     let begun := decide ((s.clock.epoch.toNat + 2 ^ 32 - arg1 w % 2 ^ 32) % 2 ^ 32 < 2 ^ 31)
     let target : BitVec 32 := if begun then s.clock.epoch + 1 else BitVec.ofNat 32 (arg1 w)
     (s.InProgress .script 0x10 1 w → (arg0 w).testBit 0 = true →
       exec .startAcquisition s = .next { s with core := { s.core with startReq := true } }) ∧
     (s.InProgress .script 0x10 1 w → (arg0 w).testBit 0 = false →
       exec .stopAcquisition s = .next { s with core := { s.core with stopReq := true } }) ∧
     (s.InProgress .script 0x10 2 w → ∃ t, exec .retrain s = .next (State.complete t .script .ok) ∧
       t = { s with fes := t.fes, lanes := t.lanes } ∧
       ∀ d h, d < 8 →
         ((arg0 w).testBit d = true → (t.link d h).retrain = true ∧ (t.link d h).wire = [] ∧
           t.lane d h = s.lane d h ++ [.retrain]) ∧
         ((arg0 w).testBit d = false → t.link d h = s.link d h ∧ t.lane d h = s.lane d h)) ∧
     (s.InProgress .script 0x10 3 w → s.node.realign = none → s.node.newEpoch = none →
       exec .returnToRefclk s = .next { s with node := { s.node with realign := some target, reRun := begun } }) ∧
     (s.InProgress .script 0x10 4 w → ∃ t, exec .liftFence s = .next t ∧
       t = { s with core := { s.core with sorters := t.core.sorters } } ∧
       ∀ r, r < 8 → t.sorter r = if (arg0 w).testBit r = true ∧ (s.sorter r).fenced = true
         then { s.sorter r with liftAt := some target } else s.sorter r) ∧
     (s.InProgress .script 0x10 5 w → ∃ t, exec .progevt s = .next (State.complete t .script .ok) ∧ Raised s t 0x9004))

/-- NOP completes at once; FENCE completes when every command fetched before it has; the WAITs complete when the epoch or the
node time is reached (modulo 2^32 and 2^64) or a selected event has been seen, with the lowest event as DETAIL, and a WAIT with
a limit completes with TIMEOUT at its limit when its condition does not hold; until then nothing changes. -/
def Obligations.NopFenceAndWaitsComplete : Prop :=
  ∀ (s : State) (src : Src) (c : Cmd),
    let w := c.word.toNat
    let is := fun (cl sub : Nat) => s.live = true ∧ s.cmdOf src = some c ∧ w % 256 = cl ∧ w / 2 ^ 8 % 256 = sub
    let epoch := (s.clock.epoch.toNat + 2 ^ 32 - arg1 w % 2 ^ 32) % 2 ^ 32 < 2 ^ 31
    let time := (s.waitTime + 2 ^ 64 - arg1 w) % 2 ^ 64 < 2 ^ 63
    let event := fun (i : Nat) => i < 20 ∧ c.seen.getLsbD i = true ∧ (arg1 w).testBit i = true
    let done := fun (i : Instr) (st : Status) (d : Nat) => exec i s = .next (s.complete src st d)
    let waits := fun (i : Instr) => exec i s = .next s
    (is 0x00 0 → done (.nopCommand src) .ok 0) ∧
    (is 0x0B 0 → (∀ k d, k < 4 → (s.cring k).cmd = some d → c.order ≤ d.order) → done (.fenceCommand src) .ok 0) ∧
    (∀ k d, is 0x0B 0 → k < 4 → (s.cring k).cmd = some d → d.order < c.order → waits (.fenceCommand src)) ∧
    (is 0x0C 0 → epoch → done (.waitEpoch src) .ok 0 ∧ (arg0 w ≠ 0 → done (.waitTimeout src) .ok 0)) ∧
    (is 0x0C 0 → ¬epoch → waits (.waitEpoch src) ∧ (arg0 w ≠ 0 → done (.waitTimeout src) .timeout 0)) ∧
    (is 0x0C 1 → time → done (.waitNodeTime src) .ok 0 ∧ (arg0 w ≠ 0 → done (.waitTimeout src) .ok 0)) ∧
    (is 0x0C 1 → ¬time → waits (.waitNodeTime src) ∧ (arg0 w ≠ 0 → done (.waitTimeout src) .timeout 0)) ∧
    (∀ i, is 0x0C 2 → event i → (∀ j, j < i → ¬event j) →
      done (.waitEvent src) .ok i ∧ (arg0 w ≠ 0 → done (.waitTimeout src) .ok i)) ∧
    (is 0x0C 2 → (∀ i, ¬event i) → waits (.waitEvent src) ∧ (arg0 w ≠ 0 → done (.waitTimeout src) .timeout 0))

/-- TIME and TRIG commands set what they name and complete with OK: INCR and the step of node time wait for the epoch boundary
(CONFLICT while the servo runs), STOP ends a tally unit's run, the strobe goes to the FE dies named, the enable mask takes its
16 bits, the mask replaced being kept for instances stamped in earlier steps; REPLY queues at most four replies for a gleaner.
TOUT and the tally set-ups: a TOUT block in range waits for the next slice boundary and claims its output for the time feature
(ILLEGAL out of range, CONFLICT when another feature holds it); a frequency or difference set-up begins on its unit, or replaces
the run at its gate boundary, and answers BUSY while a run that writes the skew table is in progress on the unit, or, for
another such run, in progress or waiting on another unit. -/
def Obligations.SettingAndTimeCommands : Prop :=
  (∀ (s : State) (src : Src) (w : Nat),
     let u := w / 2 ^ 61 % 8
     let x := s.gleaner (arg0 w)
     let done := fun (i : Instr) (t : State) (st : Status) => exec i s = .next (t.complete src st)
     (s.InProgress src 0x05 0 w → s.time.w0.getLsbD 47 = false →
       done (.incr src) { s with time := { s.time with incrDue := some (arg1 w) } } .ok) ∧
     (s.InProgress src 0x05 0 w → s.time.w0.getLsbD 47 = true → done (.incr src) s .conflict) ∧
     (s.InProgress src 0x05 1 w → s.time.w0.getLsbD 47 = false →
       done (.timeStep src)
         { s with time := { s.time with stepDue := some (s.time.stepDue.getD 0 + (BitVec.ofNat 64 (arg1 w)).toInt) } } .ok) ∧
     (s.InProgress src 0x05 1 w → s.time.w0.getLsbD 47 = true → done (.timeStep src) s .conflict) ∧
     (s.InProgress src 0x05 5 w → s.mayTake 6 u 3 = true → ∃ t, done (.stopTallyUnit src) (s.setTally u t) .ok ∧
       t.setup = none ∧ t.nextSetup = none ∧ t.stamps = [] ∧ t.result = (s.tally u).result ∧ t.base = (s.tally u).base) ∧
     (s.InProgress src 0x05 5 w → s.mayTake 6 u 3 = false → done (.stopTallyUnit src) s .conflict) ∧
     (s.InProgress src 0x05 6 w → ∃ t, done (.injectionStrobe src) t .ok ∧ t = { s with lanes := t.lanes } ∧
       ∀ d, d < 8 → t.lane d s.red.active =
         if (arg0 w).testBit d then s.lane d s.red.active ++ [.strobe] else s.lane d s.red.active) ∧
     (s.InProgress src 0x06 2 w → ∃ old, (s.clock.step, s.trig.mask) ∈ old ∧
       done (.conditionEnableMask src) { s with trig := { s.trig with mask := BitVec.ofNat 16 (arg0 w), oldMasks := old } } .ok) ∧
     (s.InProgress src 0x08 4 w → 4 ≤ x.replies.length → done (.reply src) s .busy) ∧
     (s.InProgress src 0x08 4 w → x.replies.length < 4 → (∀ m rd, x.wait ≠ .event m rd) →
       done (.reply src) (s.setGleaner (arg0 w) { x with replies := x.replies ++ [BitVec.ofNat 64 (arg1 w)] }) .ok) ∧
     (∀ m rd, s.InProgress src 0x08 4 w → x.replies.length < 4 → x.wait = .event m rd → rd < 32 →
       let x' := { x with replies := x.replies ++ [BitVec.ofNat 64 (arg1 w)] }
       (m.getLsbD 1 = false → done (.reply src) (s.setGleaner (arg0 w) x') .ok) ∧
       (m.getLsbD 1 = true → ∃ y, done (.reply src) (s.setGleaner (arg0 w) y) .ok ∧ Gleaner.WritesG x' y rd 2 false ∧
         y.wait = .run ∧ Gleaner.GoesOn x' y ∧ Gleaner.KeepsButG x' { y with wait := x.wait }))) ∧
  (∀ (s : State) (src : Src) (w : Nat) (block : BitVec 256),
     let k := block.toNat / 2 ^ 212 % 4
     let u := w / 2 ^ 61 % 8
     let begins := fun (i : Instr) (diff : Bool) =>
       (s.mayTake 6 u 3 = false → ∃ f, exec i s = .next (State.complete { s with free := f } src .conflict)) ∧
       (s.mayTake 6 u 3 = true → (∀ v, v < 8 → v ≠ u → (s.tally v).willWrite = false) → (s.tally u).writing = false →
         ∃ f t x, exec i s = .next ((State.setTally ({ s with free := f }.takeClaim 6 u 3) u t).complete src .ok) ∧
         x.diff = diff ∧ ((s.tally u).setup = none → t.setup = some x) ∧
         ((s.tally u).setup ≠ none → t = { s.tally u with nextSetup := some x })) ∧
       (s.mayTake 6 u 3 = true → (s.tally u).writing = true →
         ∃ f, exec i s = .next (State.complete { s with free := f } src .busy))
     (s.InProgress src 0x05 2 w →
       (toutOk block.toNat = false → exec (.tout src block) s = .next (s.complete src .illegal)) ∧
       (toutOk block.toNat = true → s.mayTake 1 k 1 = false → exec (.tout src block) s = .next (s.complete src .conflict)) ∧
       (toutOk block.toNat = true → s.mayTake 1 k 1 = true →
         exec (.tout src block) s =
           .next (((s.takeClaim 1 k 1).setGen k { s.gen k with wait := some block }).complete src .ok))) ∧
     (s.InProgress src 0x05 3 w → begins (.tallyFrequency src) false) ∧
     (s.InProgress src 0x05 4 w → begins (.tallyDifference src) true) ∧
     (s.InProgress src 0x05 4 w → s.mayTake 6 u 3 = true → arg0 w / 2 ^ 13 % 4 ≤ 1 →
       (∃ v, v < 8 ∧ v ≠ u ∧ (s.tally v).willWrite = true) → exec (.tallyDifference src) s = .next (s.complete src .busy)))

/-- MODE completes with ILLEGAL and the mode in force as DETAIL when the named mode may not follow it, and with ILLEGAL when no
script leads there; otherwise the node enters the mode with event MODE and starts the first step of the script, and entry into
SAFE ends the waiting triggers and raises BUSY_N. POWER to the state in force completes at once; to a lower one it ends the
waiting triggers and the jobs that wait for a baler, and the state is entered, with BUSY_N high, once no baler job runs; to a
higher one it is entered at once, and on return to ACTIVE from above frost the front end is on from the tick named and a run
goes on at the next whole slice. The mode, the tables and the thermal supervisor stay as they are. -/
def Obligations.ModesAndPowerStates : Prop :=
  (∀ (s : State) (k : Fin 4) (c : Cmd),
     let sub := c.word.toNat / 2 ^ 8 % 256
     let i := Instr.mode (.ring k)
     (s.cring k).cmd = some c → c.word.toNat % 256 = 3 → s.live = true → s.node.script = none →
     ((∀ m, Mode.ofNum? sub = some m → legalMode s.node.mode m = false) →
       exec i s = .next (s.complete (.ring k) .illegal s.node.mode.num)) ∧
     ∀ m, Mode.ofNum? sub = some m → legalMode s.node.mode m = true →
       ((∀ p, s.node.prog = some p → findScript p.scripts s.node.mode m = none) →
         exec i s = .next (s.complete (.ring k) .illegal)) ∧
       ∀ p rest, s.node.prog = some p → findScript p.scripts s.node.mode m = some (0 :: rest) → Answers i s (fun t =>
         t.node.mode = m ∧ t.node.script = some ⟨.ring k, 0 :: rest, 0, some ⟨0, 0, s.pcie.fetched, 0⟩, m == .safe⟩ ∧
         (m = .safe → t.trig.busy = true ∧ t.jobs = [] ∧ ∀ e, e ∈ t.trig.queue → e.st ≠ .waiting) ∧
         (m ≠ .safe → Raised s t 0x9001 ∧ t.pcie.cause = s.pcie.cause ||| 1 ∧
           t = { s with
             node := { s.node with mode := m, script := t.node.script }
             core := { s.core with stopReq := t.core.stopReq, startReq := t.core.startReq }
             loopA := { s.loopA with word := t.loopA.word }, loopB := { s.loopB with word := t.loopB.word }
             pcie := { s.pcie with rings := t.pcie.rings, cause := t.pcie.cause, outQ := t.pcie.outQ }
             hay := { s.hay with fifo := t.hay.fifo } }))) ∧
  (∀ (s : State) (k : Fin 4) (c : Cmd) (i : Instr) (q : PState) (tick : BitVec 12),
     (i, q) ∈ [(Instr.powerActive (.ring k) tick, PState.active), (.powerHush (.ring k), .hush), (.powerRest (.ring k), .rest),
       (.powerFallow (.ring k), .fallow), (.powerFrost (.ring k), .frost)] →
     let keeps := fun (t : State) => t.node.mode = s.node.mode ∧ t.tables = s.tables ∧ t.thermal = s.thermal
     (s.cring k).cmd = some c → c.word.toNat % 256 = 4 → c.word.toNat / 2 ^ 8 % 256 = q.num → s.live = true →
     (s.node.pstate = q → exec i s = .next (s.complete (.ring k) .ok)) ∧
     (s.node.pstate.num < q.num → s.trig.cap = none → Answers i s (fun t => keeps t ∧ t.clock = s.clock ∧ t.jobs = [] ∧
       (∀ e, e ∈ t.trig.queue → e ∈ s.trig.queue ∧ e.st ≠ .waiting ∧ e.st ≠ .closed) ∧
       ((∀ b, b < 4 → (s.baler b).job = none) →
         t.node.pstate = q ∧ t.trig.busy = true ∧ (t.cring k).cmd = none) ∧
       (∀ b, b < 4 → (s.baler b).job ≠ none → t.node.pstate = s.node.pstate ∧ (t.cring k).cmd = some c))) ∧
     (q.num < s.node.pstate.num → Answers i s (fun t => keeps t ∧ t.node.pstate = q ∧ (t.cring k).cmd = none ∧
       t.trig = s.trig ∧ t.balers = s.balers ∧
       (q = .active → s.node.pstate ≠ .frost → (s.core.running = true → t.core.nextSl = s.fullSlice + 1) ∧
         ∀ d, d < 8 → (t.fe d).activeFrom = s.coarse tick))))

/-- A QUERY gives one result: a header of 64 bytes with the item, the parameter, the form, the count, node time and the step,
then 16 bytes for each figure or the raw bytes; it is written to the address in ARG1 when it fits the buffer, and its size in
units of 64 bytes is the DETAIL, else NOSPACE. TABLE gives the bytes of the table, SETTINGS the settings in force. Apart from
the counters and peaks that it clears and the model's count of free values, nothing changes. -/
def Obligations.QueriesWriteTheirResults : Prop :=
  ∀ (s : State) (src : Src) (w sub : Nat) (i : Instr),
    (i, sub) ∈ [(Instr.queryBlocks src, 1), (.queryIngress src, 2), (.queryMemory src, 3), (.queryTrigger src, 4),
      (.queryBalers src, 5), (.queryPcie src, 6), (.queryFodafort src, 7), (.queryTime src, 8), (.queryRedund src, 9),
      (.queryEnviron src, 10), (.queryLoops src, 11), (.queryCalq src, 12), (.queryTable src, 13), (.queryTdcmap src, 14),
      (.queryTally src, 15), (.querySettings src, 16)] →
    s.InProgress src 0x07 sub w →
    let param := arg0 w / 2 ^ 24
    let raw := if 13 ≤ sub then 1 else 0
    ∃ (bs : List Byte) (t : State),
      let n := (bs.length + 63) / 64
      t = { s with
        counters := t.counters, fes := t.fes, free := t.free
        core := { s.core with lowPages := t.core.lowPages, lowOut := t.core.lowOut }
        pcie := { s.pcie with peak := t.pcie.peak }, red := t.red, thermal := { s.thermal with atLevel := t.thermal.atLevel } } ∧
      (arg0 w % 2 ^ 24 < n → exec i s = .next (t.complete src .nospace n)) ∧
      (n ≤ arg0 w % 2 ^ 24 → exec i s = .next ((t.emit (.write (arg1 w) bs)).complete src .ok n)) ∧
      64 ≤ bs.length ∧ leAt bs 0 4 % 2 ^ 17 = sub + param * 2 ^ 8 + raw * 2 ^ 16 ∧
      leAt bs 4 4 = (if raw = 0 then (bs.length - 64) / 16 else bs.length - 64) % 2 ^ 32 ∧ (raw = 0 → bs.length % 16 = 0) ∧
      leAt bs 8 8 = s.nodeNow.1 % 2 ^ 48 ∧ leAt bs 16 4 = s.nodeNow.2 / 2 ^ 32 ∧ leAt bs 24 8 = s.clock.step % 2 ^ 64 ∧
      (∀ p, sub = 13 → s.node.prog = some p → bs.drop 64 = bytesAt (s.table param) 0 (Tbl.get 0 p.sizes param)) ∧
      (sub = 16 → bs.length = 128 ∧ leAt bs 64 8 = s.trig.mask.toNat ∧ leAt bs 72 8 = s.ring.gdepth % 2 ^ 64 ∧
        leAt bs 80 8 = s.nodeWord ∧ leAt bs 88 8 = s.pcie.select.toNat)

/-- RING reads the unread entries of the event ring that fit, oldest first, after one EVLOST entry when entries were lost;
READLOG reads up to 128 entries of the active hub's log from the first at or after SEQ; SETREAD reads the settings block of a
kind in force; MONRUN raises the monitor's trigger 7. An entry is 32 bytes, the last four the CRC of the others. -/
def Obligations.LogCommandsAnswer : Prop :=
  (∀ e : EvEntry, e.bytes.length = 32 ∧ e.bytes.drop 28 = leBytes 4 (crc32c (e.bytes.take 28))) ∧
  ∀ (s : State) (src : Src) (w : Nat),
    let y := s.hay
    let unread := y.ring.drop (y.ring.length - y.unread)
    let words := fun (l : List (BitVec 64)) => l.flatMap (fun x => leBytes 8 x.toNat)
    let answers := fun (i : Instr) (t : State) (bs : List Byte) (n : Nat) =>
      exec i s = .next ((if bs = [] then t else t.emit (.write (arg1 w) bs)).complete src .ok n)
    (s.InProgress src 0x08 0 w → y.evlost = 0 →
      let es := unread.take (min y.unread (2 * arg0 w))
      answers (.ringRead src) { s with hay := { y with unread := y.unread - min y.unread (2 * arg0 w) } }
        (es.flatMap EvEntry.bytes) es.length) ∧
    (s.InProgress src 0x08 0 w → 0 < y.evlost → 0 < arg0 w → ∃ t e bs n,
      exec (.ringRead src) s = .next ((State.emit t (.write (arg1 w) (EvEntry.bytes e ++ bs))).complete src .ok n) ∧
        e.code = 0x9003 ∧ t.hay.evlost = 0) ∧
    (s.InProgress src 0x08 1 w →
      let es := ((y.store s.red.active).log.dropWhile (fun e => !reachedMod 32 e.seq.toNat (arg0 w))).take 128
      answers (.readlog src) s (es.flatMap EvEntry.bytes) es.length) ∧
    (s.InProgress src 0x08 3 w →
      (arg0 w = 1 → answers (.setread src) s (words ([s.mon.header, s.mon.diode] ++
        (List.range 64).map (Tbl.get 0 s.mon.regular) ++ (List.range 8).map (Tbl.get 0 s.mon.injected))) 0) ∧
      (arg0 w = 2 → answers (.setread src) s (words ((List.range 8).flatMap (fun n =>
        [(s.loop n).w0, (s.loop n).w1, (s.loop n).w2, (s.loop n).w3, (s.loop n).w4]))) 0) ∧
      (arg0 w = 3 → answers (.setread src) s (words [s.time.w0, s.time.w1, s.time.w2]) 0) ∧
      (arg0 w = 4 → answers (.setread src) s (words [s.loopA.word, s.loopB.word]) 0) ∧
      (arg0 w = 5 → answers (.setread src) s (leBytes 8 (s.node.nodeId.toNat +
        (s.node.tripRt.getD s.node.tripOtp).toNat * 2 ^ 16)) 0)) ∧
    (s.InProgress src 0x08 5 w →
      answers (.monrun src) { s with mon := { s.mon with arriving := s.mon.arriving ++ [7] } } [] 0)

/-- SETWRITE: a block of another size or with a field out of its range completes with ILLEGAL and changes nothing; a legal one
gives its words to the time service, the safety loops (test current only in STANDBY, else NOTREADY) or the node at once, to the
monitor for its next sequences, and to each loop: a disabled loop takes them with its output off, a loop that they enable starts
anew with them, a running one holds them for its next period. -/
def Obligations.SettingsAreWritten : Prop :=
  ∀ (s : State) (src : Src) (w : Nat) (b : List Byte),
    let word := fun (o : Nat) => BitVec.ofNat 64 (leAt b (8 * o) 8)
    let done := fun (i : Instr) (t : State) (st : Status) => exec i s = .next (t.complete src st)
    s.InProgress src 0x08 2 w →
    (arg0 w = 3 →
      let ok := b.length = 24 ∧ (word 0).toNat % 2 ^ 47 = 0 ∧ (word 0).toNat / 2 ^ 52 % 16 ≤ 10 ∧ (word 0).toNat / 2 ^ 48 % 16 ≤ 10
      (ok → done (.setwriteTimeService src b) { s with time := { s.time with w0 := word 0, w1 := word 1, w2 := word 2 } } .ok) ∧
      (¬ok → done (.setwriteTimeService src b) s .illegal)) ∧
    (arg0 w = 4 →
      let ok := b.length = 16 ∧ loopWordOk (word 0).toNat = true ∧ loopWordOk (word 1).toNat = true
      let test := (word 0).toNat / 2 ^ 61 = 5 ∨ (word 1).toNat / 2 ^ 61 = 5
      (¬ok → done (.setwriteLoopaLoopb src b) s .illegal) ∧
      (ok → test → s.node.mode ≠ .standby → done (.setwriteLoopaLoopb src b) s .notready) ∧
      (ok → ¬test ∨ s.node.mode = .standby → done (.setwriteLoopaLoopb src b)
        { s with loopA := { s.loopA with word := word 0 }, loopB := { s.loopB with word := word 1 } } .ok)) ∧
    (arg0 w = 5 →
      let ok := b.length = 8 ∧ (word 0).toNat / 2 ^ 17 = 0
      (ok → done (.setwriteNodeWord src b)
        { s with node := { s.node with nodeId := (word 0).setWidth 16, tripRt := some ((word 0).getLsbD 16) } } .ok) ∧
      (¬ok → done (.setwriteNodeWord src b) s .illegal)) ∧
    (arg0 w = 1 →
      let reg := fun (n : Nat) => word (2 + n)
      let inj := fun (n : Nat) => word (66 + n)
      let ok := b.length = 592 ∧ headerWordOk (word 0).toNat = true ∧ diodeWordOk (word 1).toNat = true ∧
        (∀ n, n < 64 → entryOk true (reg n).toNat = true) ∧ ∀ n, n < 8 → entryOk false (inj n).toNat = true
      let off := (∀ n, n < 64 → (reg n).getLsbD 63 = false) ∧ ∀ n, n < 8 → (inj n).getLsbD 63 = false
      (¬ok → done (.setwriteMonitor src b) s .illegal) ∧
      (ok → off → ∃ t x y, done (.setwriteMonitor src b) t .ok ∧
        t = { s with mon := { s.mon with regWait := some (word 0, word 1, x), injWait := some y } } ∧
        (∀ n, n < 64 → Tbl.get 0 x n = reg n) ∧ ∀ n, n < 8 → Tbl.get 0 y n = inj n) ∧
      (∀ n r, ok → n < 8 → r ∈ entryNeeds (inj n).toNat → s.entryMay (inj n).toNat r = false →
        done (.setwriteMonitor src b) s .conflict)) ∧
    (arg0 w = 2 →
      let ok := b.length = 320 ∧ ∀ n, n < 8 → loopWordsOk n (blockLoop b n) s.namesTrigger = true
      let free := ∀ n r, n < 8 → r ∈ loopNeeds n (blockLoop b n) → s.mayTake r.1 r.2.1 r.2.2 = true
      (¬ok → done (.setwriteLoop src b) s .illegal) ∧
      (ok → ¬free → done (.setwriteLoop src b) s .conflict) ∧
      (ok → free → ∃ t, done (.setwriteLoop src b) t .ok ∧
        t = { s with loops := t.loops, node := { s.node with rtClaims := t.node.rtClaims }
                     mon := { s.mon with arriving := t.mon.arriving } } ∧
        ∀ n, n < 8 →
          let l := s.loop n
          let m := t.loop n
          let en := (word (5 * n)).getLsbD 63
          let has := fun (x : LoopSt) => x.w0 = word (5 * n) ∧ x.w1 = word (5 * n + 1) ∧ x.w2 = word (5 * n + 2) ∧
            x.w3 = word (5 * n + 3) ∧ x.w4 = word (5 * n + 4)
          (en = false → has m ∧ m.out = false ∧ m.wait = none) ∧
          (en = true → l.en = false ∨ l.fault ≠ none → has m ∧ m.starting = true ∧ m.out = false ∧ m.fault = none) ∧
          (en = true → l.en = true → l.fault = none → m = { l with
            wait := some (word (5 * n), word (5 * n + 1), word (5 * n + 2), word (5 * n + 3))
            waitPwm := some (word (5 * n + 3), word (5 * n + 4)) })))

/-- LOAD: an image without the magic number, or with a wrong ICRC, fails check 2 with ILLEGAL, an unsigned one on a node that
asks for signatures fails check 3 with DENIED, and any failed check gives its status, its number and its place as DETAIL and
changes nothing; an image that passes is in force: its claims, its tables, GDEPTH, every gleaner set up at the entry point, the
mode STANDBY after SELFTEST; it completes with OK, or with WARN for a window longer than GDEPTH. -/
def Obligations.LoadChecksAndInstalls : Prop :=
  ∀ (s : State) (src : Src) (w : Nat) (b : List Byte),
    let fails := fun (st : Status) (d : Nat) => exec (.load src b) s = .next (s.complete src st d)
    let header := leAt b 0 4 = 0x49545548 ∧ leAt b 0x3C 4 = crc32c (icrcBytes b)
    s.InProgress src 0x01 0 w →
    (¬header → fails .illegal (2 * 2 ^ 16)) ∧
    (headerOk b = true → s.node.reqSig = true → (leAt b 6 2).testBit 0 = false → fails .denied (3 * 2 ^ 16 + 0xFFFF)) ∧
    (∀ f, s.loadFailure b = some f → fails f.status (f.check * 2 ^ 16 + f.detail)) ∧
    (s.loadFailure b = none → ∃ t : State,
      (exec (.load src b) s = .next (t.complete src .ok) ∨ ∃ c, exec (.load src b) s = .next (t.complete src .warn (8 * 2 ^ 16 + c))) ∧
      (∃ p, t.node.prog = some p ∧ p.bytes = b ∧ p.code = typeBytes b 2 ∧ p.scripts = typeBytes b 4) ∧
      t.node.claims = claimsOf (manifest b) ∧ t.node.rtClaims = [] ∧ (arg0 w ≠ 0 → t.ring.gdepth = arg0 w) ∧
      (s.node.mode = .selftest → t.node.mode = .standby) ∧
      (∀ x, x ∈ sections b → x.type = 3 → t.table x.id = cellsOf (sectBytes b x)) ∧
      ∀ g, g < 128 → t.gleaner g =
        { Gleaner.init with pc := BitVec.ofNat 17 (leAt b 0x10 4), replies := (s.gleaner g).replies })

/-- TABLE: a patch block that is misaligned, reaches past its table, changes its size or makes a field illegal completes with
ILLEGAL, the skew table during a run that writes it with BUSY; a good one waits for the next slice boundary, where the bytes
take effect once every earlier sheaf is done, and the command completes there with OK. -/
def Obligations.TablesAreWrittenAtBoundaries : Prop :=
  (∀ (s : State) (src : Src) (w : Nat) (block : List Byte),
    let id := arg0 w
    let off := leAt block 0 4
    let len := leAt block 4 4
    let bytes := (block.drop 16).take len
    let size := match s.node.prog with
      | some p => Tbl.get 0 p.sizes id
      | none => 0
    let shape := leAt block 8 8 = 0 ∧ off % 4 = 0 ∧ len % 4 = 0 ∧ 0 < size ∧ off + len ≤ size ∧ bytes.length = len
    let new := putBytes (s.tableAhead id) off bytes
    let legal := (∀ n, tableSize id new = some n → n = size) ∧ tableOk s.mon.on s.node.claims id new = true
    let fails := fun (st : Status) => exec (.table src block) s = .next (s.complete src st)
    s.InProgress src 0x02 0 w → (∀ d, d ∈ s.core.tableDue → d.src ≠ some src) →
    (¬shape ∨ ¬legal → fails .illegal) ∧
    (shape → legal → id = 2 → (∃ u, u < 8 ∧ (s.tally u).writing = true) → fails .busy) ∧
    (shape → legal → id ≠ 2 ∨ (∀ u, u < 8 → (s.tally u).writing = false) → Answers (.table src block) s (fun t =>
      t = { s with core := { s.core with
        tableDue := s.core.tableDue ++ [⟨id, off, bytes, s.fullSlice + 1, some src⟩], holdFrom := t.core.holdFrom } }))) ∧
  ∀ (s : State) (d : TableWrite),
    s.counting = true → s.clock.slice ≠ 0xFFF → s.clock.epochDone = false → s.core.running = false → s.core.tableDue = [d] →
    d.at_ ≤ s.fullSlice + 1 → Answers .sliceBoundary s (fun t =>
      t.core.tableDue = [] ∧ t.table d.id = putBytes (s.table d.id) d.off d.bytes ∧
      (∀ id, id ≠ d.id → t.table id = s.table id) ∧ ∀ k, d.src = some (.ring k) → (t.cring k).cmd = none)

/-- STAGE writes the image to the slot not in use of every running hub, which is then not verified; VERIFY completes with DENIED
and the first failing check, or marks the slot verified; COMMIT makes a verified slot the preferred one on trial with event
FWCOMMIT, and is DENIED else; ACTIVATE restarts Hayward at the next step boundary. A hub whose flash operation fails reports it.
OTP: DENIED 1 with a die above 85 °C, DENIED 2 without a free generation, ILLEGAL for an illegal field; else the rows of the
next generation are burned in both hubs alike, words 0 to 30, the CRC of the first 248 bytes and the mark, no other row changes,
and OTPGEN is raised; a row that fails ends the burn with FAULT and OTPFAIL, the rows before it written. -/
def Obligations.FirmwareAndOtp : Prop :=
  (∀ (s : State) (src : Src) (w : Nat) (img : List Byte),
     let y := s.hay
     let hubs := if s.red.lockstep then [s.red.active, s.red.active.other] else [s.red.active]
     let staged := y.staged.getD (!y.slot)
     let elsewhere := fun (t : State) => ∀ h, h ∉ hubs → t.hay.store h = y.store h
     (s.InProgress src 0x09 0 w → img.length = 4096 * arg0 w →
       (∃ t, exec (.stage src img 0) s = .next (State.complete t src .ok) ∧ t = { s with hay := t.hay } ∧ elsewhere t ∧
         t.hay.staged = some (!y.slot) ∧ ∀ h, h ∈ hubs →
           (t.hay.store h).slotImg (!y.slot) = img ∧ (t.hay.store h).slotImg y.slot = (y.store h).slotImg y.slot ∧
           (t.hay.store h).control.verified (!y.slot) = false) ∧
       ∃ t, exec (.stage src img 3) s = .next (State.complete t src .fault (if s.red.lockstep then 3 else 2 ^ s.red.active.idx)) ∧
         ∃ e more, t.hay.fifo = y.fifo ++ e :: more ∧ e.code = 0x900D) ∧
     (s.InProgress src 0x09 1 w →
       (∀ n, (y.store s.red.active).imageCheck ((y.store s.red.active).slotImg staged) = some n →
         exec (.verify src 0) s = .next (s.complete src .denied n)) ∧
       (leAt ((y.store s.red.active).slotImg staged) 0 4 ≠ 0x57465748 → exec (.verify src 0) s = .next (s.complete src .denied 1)) ∧
       ((∀ h, h ∈ hubs → (y.store h).imageCheck ((y.store h).slotImg staged) = none) →
         ∃ t, exec (.verify src 0) s = .next (State.complete t src .ok) ∧ t = { s with hay := t.hay } ∧ elsewhere t ∧
           ∀ h, h ∈ hubs → (t.hay.store h).control.verified staged = true)) ∧
     (s.InProgress src 0x09 2 w →
       ((∃ h, h ∈ hubs ∧ (y.store h).control.verified staged = false) →
         exec (.commit src 0) s = .next (s.complete src .denied)) ∧
       ((∀ h, h ∈ hubs → (y.store h).control.verified staged = true) →
         ∃ t, exec (.commit src 0) s = .next (State.complete t src .ok) ∧ Raised s t 0x9008 ∧ elsewhere t ∧
           ∀ h, h ∈ hubs → (t.hay.store h).control.pref = staged ∧ (t.hay.store h).control.trial = 1)) ∧
     (s.InProgress src 0x09 3 w → exec (.activate src) s =
       .next { s with hay := { y with restart := true, activating := some src } })) ∧
  (∀ (s : State) (src : Src) (w : Nat) (b : List Byte),
     let y := s.hay
     let hubs := if s.red.lockstep then [s.red.active, s.red.active.other] else [s.red.active]
     let g := (y.store s.red.active).nextGen
     let row := fun (t : State) (h : Hub) (i : Nat) => (Tbl.get 0 (t.hay.store h).rows i).toNat
     let want := fun (i : Nat) => if i < 62 then leAt b (4 * i) 4 else if i = 62 then crc32c (b.take 248) else 0xA5C35A3C
     let fails := fun (st : Status) (d : Nat) => exec (.otp src b none) s = .next (s.complete src st d)
     s.InProgress src 0x0A 0 w → b.length = 256 →
     ((∃ d q, d < 10 ∧ s.thermal.voted d = some q ∧ 340 < q) → fails .denied 1) ∧
     (s.coolEnough = true → 4 ≤ g → fails .denied 2) ∧
     (s.coolEnough = true → g < 4 → otpFieldsOk b = false → fails .illegal 0) ∧
     (s.coolEnough = true → g < 4 → otpFieldsOk b = true →
       (∃ t, exec (.otp src b none) s = .next (State.complete t src .ok g) ∧ Raised s t 0x900A ∧
         (∀ h, h ∉ hubs → t.hay.store h = y.store h) ∧
         ∀ h, h ∈ hubs → (∀ i, i < 64 → row t h (0x20 + 64 * g + i) = want i) ∧
           ∀ r, r < 0x20 + 64 * g ∨ 0x20 + 64 * g + 64 ≤ r → row t h r = row s h r) ∧
       ∀ bad : Fin 64, ∃ t, exec (.otp src b (some bad)) s = .next (State.complete t src .fault) ∧ Raised s t 0x900B ∧
         ∀ h, h ∈ hubs → (∀ i, i < bad.val → row t h (0x20 + 64 * g + i) = want i) ∧
           ∀ r, r < 0x20 + 64 * g ∨ 0x20 + 64 * g + bad < r → row t h r = row s h r))

/-! ### Triggers, parts and balers -/

/-- The trigger command pairs: TCMDNOLOCK in SELFTEST leaves a pair unused, a pair that locks is taken when none is in use, the
loss of the pair in use changes to the other one when it is locked, with TCMDSW, else no pair is in use, with TCMDLOST; 16
errors in 64 units change from pair 0. In RAW unit the received bits fill units of ten, a slip skipping the oldest bit not yet
taken. A unit that no transition matches is counted and restarts the machine in state 0; one that matches goes to its next
state, sets its slip and counts or resets the counter. -/
def Obligations.TriggerCommandsAreDecoded : Prop :=
  ∀ (s : State) (i : Fin 2),
    let m := s.trig.tcmd
    let other : Fin 2 := if i = 0 then 1 else 0
    let pairs := fun (t : State) (x : Pair) => t.trig.tcmd.pair i = x ∧ t.trig.tcmd.pair other = m.pair other
    let fresh := fun (t : State) => t.trig.tcmd.state = 0 ∧ t.trig.tcmd.cnt = 0 ∧ t.trig.tcmd.fields = [] ∧ t.trig.tcmd.bits = []
    let lost : Pair := { m.pair i with locked := false }
    (s.live = true → s.node.mode = .selftest → Answers (.tcmdNoLock i) s (fun t => Raised s t 0x2008 ∧ pairs t ⟨false, true⟩)) ∧
    (s.node.mode ≠ .selftest → exec (.tcmdNoLock i) s = .next s) ∧
    (s.live = true → m.inUse ≠ none → Answers (.tcmdLock i) s (fun t =>
      t = { s with trig := { s.trig with tcmd := t.trig.tcmd } } ∧ pairs t ⟨true, false⟩ ∧ t.trig.tcmd.inUse = m.inUse)) ∧
    (s.live = true → m.inUse = none → Answers (.tcmdLock i) s (fun t =>
      Raised s t 0x2009 ∧ pairs t ⟨true, false⟩ ∧ t.trig.tcmd.inUse = some i ∧ fresh t)) ∧
    (s.live = true → m.inUse ≠ some i → Answers (.tcmdsw i true) s (fun t =>
      t = { s with trig := { s.trig with tcmd := t.trig.tcmd } } ∧ pairs t lost ∧ t.trig.tcmd.inUse = m.inUse)) ∧
    (s.live = true → m.inUse = some i → (m.pair other).locked = true → Answers (.tcmdsw i true) s (fun t =>
      Raised s t 0x2009 ∧ pairs t lost ∧ t.trig.tcmd.inUse = some other ∧ fresh t)) ∧
    (s.live = true → m.inUse = some i → (m.pair other).locked = false → Answers (.tcmdsw i true) s (fun t =>
      Raised s t 0x200A ∧ pairs t lost ∧ t.trig.tcmd.inUse = none ∧ fresh t)) ∧
    (s.live = true → m.inUse = some 0 → m.pair1.locked = true → s.decRaw = false → 16 ≤ m.errCount →
      Answers (.tcmdsw 0 false) s (fun t => Raised s t 0x2009 ∧ t.trig.tcmd.inUse = some 1 ∧ fresh t)) ∧
    ∀ (unit : BitVec 10) tick, s.live = true → s.node.pstate = .active → m.inUse = some i → (m.pair i).locked = true →
      (s.table idDecode).isEmpty = false →
      let ten := (List.range 10).map (fun n => unit.getLsbD (9 - n))
      let bits := if m.slip then (m.bits ++ ten).drop 1 else m.bits ++ ten
      let u := if s.decRaw then (bits.take 10).foldl (fun n b => 2 * n + b.toNat) 0 else unit.toNat
      let rest := fun (t : State) => t.trig.tcmd.bits = if s.decRaw then bits.drop 10 else m.bits
      (s.decRaw = true → bits.length < 10 → exec (.tcmdUnit unit tick) s = .next { s with trig := { s.trig with
        tcmd := { m with bits := bits, errs := m.errs <<< 1, slip := false } } }) ∧
      (s.decRaw = false ∨ 10 ≤ bits.length → s.tcmdMatch m u = none → Answers (.tcmdUnit unit tick) s (fun t =>
        t = { s with trig := { s.trig with tcmd := t.trig.tcmd }, counters := t.counters } ∧ Counted s t (figTrig 5 3) 1 ∧
        t.trig.tcmd.state = 0 ∧ t.trig.tcmd.cnt = 0 ∧ t.trig.tcmd.fields = m.fields ∧ t.trig.tcmd.slip = false ∧ rest t)) ∧
      ∀ tr, s.decRaw = false ∨ 10 ≤ bits.length → s.tcmdMatch m u = some tr → Answers (.tcmdUnit unit tick) s (fun t =>
        t = { s with trig := { s.trig with tcmd := t.trig.tcmd }, red := t.red } ∧ t.trig.tcmd.state = tr / 2 ^ 37 % 64 ∧
        t.trig.tcmd.slip = tr.testBit 20 ∧ rest t ∧
        t.trig.tcmd.cnt = (if tr.testBit 21 then 0 else Nat.min (m.cnt + 1) 255) ∧ (tr.testBit 23 = false → t.red = s.red) ∧
        ∀ f, Tbl.get 0 t.trig.tcmd.fields f =
          if f = tr / 2 ^ 33 % 16 then
            let v := if tr.testBit 24 then 0 else Tbl.get 0 m.fields f
            let n := tr / 2 ^ 25 % 16
            if 0 < n then (v * 2 ^ n + u / 2 ^ (tr / 2 ^ 29 % 16) % 2 ^ n) % 2 ^ s.decWidth f else v
          else Tbl.get 0 m.fields f)

/-- SOFTWARE_TRIGGER makes a queue entry for the window of the condition about the time given, with the next trigger number, and
completes with OK (the epoch of the time is the one of its number nearest to the epoch in progress); ILLEGAL for a condition the
decode table lacks, BUSY with 64 entries in use. In STREAMING the next window of N ticks makes an entry with the next number;
CAPTURE_START takes the closed entry with the lowest number; the last part of an entry goes to output staging with its records,
its window and LAST for the destinations of its conditions, and the capture unit is free. -/
def Obligations.EntriesBecomeParts : Prop :=
  (∀ (s : State) (src : Src) (w : Nat),
     let c := arg0 w
     let at_ : Int := ((s.fullEpoch : Int) + (BitVec.ofNat 32 (arg1 w / 2 ^ 32) - s.clock.epoch).toInt) * 2 ^ 24 +
       (arg1 w / 2 ^ 8 % 2 ^ 24 : Nat)
     s.InProgress src 0x06 0 w →
     ((s.table idDecode).isEmpty = true ∨ s.decConds ≤ c → exec (.softwareTrigger src) s = .next (s.complete src .illegal)) ∧
     ((s.table idDecode).isEmpty = false → c < s.decConds → 64 ≤ s.trig.queue.length →
       exec (.softwareTrigger src) s = .next (s.complete src .busy)) ∧
     ((s.table idDecode).isEmpty = false → c < s.decConds → s.trig.queue.length < 64 →
       ∃ t, exec (.softwareTrigger src) s = .next (State.complete t src .ok) ∧ t.trig.nextNum = s.trig.nextNum + 1 ∧
         Counted s t (figTrig 2 0) 1 ∧
         (s.trig.queue = [] → s.core.running = true → s.ring.begun = true → s.ring.newest = none →
           (s.core.startAt : Int) ≤ at_ - condPre (s.condWord c 4) →
           ∃ e, t.trig.queue = [e] ∧ e.num = s.trig.nextNum ∧ e.ws = at_ - condPre (s.condWord c 4) ∧
             e.we = at_ + condPost (s.condWord c 4) ∧ e.soft = true ∧ e.st = .waiting ∧ e.conds = BitVec.ofNat 16 (2 ^ c)))) ∧
  (∀ s : State,
     (∀ ws, s.trig.streamAt = some ws → s.live = true → s.node.pstate = .active → s.node.mode = .streaming → s.core.running = true →
       0 < s.streamLen → ws < s.coarse0 + 4096 → Answers .streamEntry s (fun t =>
         t.trig.streamAt = some (ws + s.streamLen) ∧ t.trig.nextNum = s.trig.nextNum + 1 ∧ t.core = s.core ∧ t.ring = s.ring)) ∧
     (s.trig.streamAt = none ∨ s.node.mode ≠ .streaming → exec .streamEntry s = .next s) ∧
     (∀ e, s.live = true → s.node.pstate = .active → s.trig.cap = none → e ∈ s.trig.queue → e.st = .closed →
       (∀ x, x ∈ s.trig.queue → x.st = .closed → x = e ∨ (x.num - e.num).toNat < 2 ^ 31 ∧ x.num ≠ e.num) →
       Answers .captureStart s (fun t => t = { s with trig := { s.trig with queue := t.trig.queue, cap := t.trig.cap } } ∧
         t.trig.queue = s.trig.queue.map (fun x => if x = e then { e with st := .capturing } else x) ∧
         ∃ c, t.trig.cap = some c ∧ c.num = e.num ∧ c.part = 0 ∧ (e.prestart = true → c.slices = []))) ∧
     ((∀ e, e ∈ s.trig.queue → e.st ≠ .closed) ∨ s.trig.cap ≠ none → exec .captureStart s = .next s) ∧
     (∀ c e, s.live = true → s.trig.cap = some c → s.capEntry = some e → s.ownMerges = false → e.comp = false →
       e.outs.getLsbD 0 = true → c.slices = [] → c.recs.length ≤ 4194304 → (∀ p, p ∈ s.trig.staging → p.dests ≠ 0) →
       Answers .partComplete s (fun t => t.trig.cap = none ∧ t.jobs = s.jobs ∧ t.core = s.core ∧
         (∀ n, n < s.ring.stagingStart → t.lineAt n = s.lineAt n) ∧
         Counted s t (figTrig 3 0) 1 ∧ ∃ p, t.trig.staging = s.trig.staging ++ [p] ∧ p.num = e.num ∧ p.part = c.part ∧
           p.recs = c.recs ∧ p.nrec = c.recs.length ∧ p.conds = e.conds ∧ p.wstart = BitVec.ofInt 24 e.ws ∧
           p.wlen = (e.we - e.ws).toNat ∧ p.node = s.node.nodeId ∧ p.flags.getLsbD 7 = true ∧ p.dests.getLsbD 0 = true)) ∧
     (s.trig.cap = none → exec .partComplete s = .next s))

/-- JOB_END with a frame that fits and decodes to its input gives the frame to its part and frees the baler; one that is too
large runs again with room for the bound, or leaves the part uncompressed under NSPOL; one that decodes wrongly is a local error
and runs again stored; a stored one that fails marks the baler failed with BALERFAIL. FLUSH makes the next record boundary of
the job of its baler a sync point and waits on it; it completes at once without a job, past the last record, and for a baler not
claimed. -/
def Obligations.BalersFinishJobs : Prop :=
  ∀ (s : State),
    (∀ (b : Fin 4) (j : Job) stream sound, (s.baler b).job = some j → s.live = true → j.flushes = [] →
      let x := s.baler b
      let st := s.jobStatus j stream sound
      let frame := s.jobFrame j (s.jobRead j stream) stream
      let ends := fun (P : State → Prop) => Answers (.jobEnd b stream sound) s (fun t =>
        Counted s t (figBaler 1 b st) 1 ∧ t.jobs = s.jobs ∧ t.core = s.core ∧
        (∀ n, n < s.ring.stagingStart → t.lineAt n = s.lineAt n) ∧ (∀ c, c ≠ b.val → t.baler c = s.baler c) ∧ P t)
      (st = 0 ∨ st = 3 → ends (fun t =>
        t.baler b = { x with job := none, inBytes := x.inBytes + s.jobBytes j, outBytes := x.outBytes + up8 frame.length } ∧
        t.trig.staging = s.trig.staging.map (fun p => if p.num = j.num ∧ p.part = j.part ∧ p.merged = false then
          { p with jobs := Tbl.set 0 p.jobs j.prof 0, frames := Tbl.set [] p.frames j.prof frame } else p))) ∧
      (st = 1 → nspolOf (s.profHead j.prof) = true → ends (fun t => t.baler b = { x with job := none })) ∧
      (st = 1 → nspolOf (s.profHead j.prof) = false → ends (fun t => t.trig = s.trig ∧
        ∃ r, (t.baler b).job = some r ∧ r.larger = true ∧ r.stored = j.stored ∧ r.recs = j.recs ∧ r.num = j.num)) ∧
      (st = 2 → ends (fun t => t.trig = s.trig ∧ Raised s t 0x3004 ∧ (.mismatch, s.clock.step) ∈ (t.hubRed s.red.active).errs ∧
        ∃ r, (t.baler b).job = some r ∧ r.stored = true ∧ r.recs = j.recs ∧ r.num = j.num)) ∧
      (st = 4 → ends (fun t => t.baler b = { x with job := none, failed := true } ∧
        (.balerfail, s.clock.step) ∈ (t.hubRed s.red.active).errs))) ∧
    (∀ (b : Fin 4) stream sound, (s.baler b).job = none → exec (.jobEnd b stream sound) s = .next s) ∧
    ∀ (src : Src) (w taken : Nat), s.InProgress src 0x06 1 w →
      let b := arg0 w
      let i := Instr.flush src taken
      ((s.baler b).job = none → exec i s = .next (s.complete src .ok)) ∧
      ∀ j, (s.baler b).job = some j →
        let r := Nat.max 1 taken
        (s.balerClaimed b = false ∨ j.recs.length ≤ r → exec i s = .next (s.complete src .ok)) ∧
        (s.balerClaimed b = true → r < j.recs.length → src ∉ j.flushes → Answers i s (fun t =>
          t = { s with balers := t.balers, counters := t.counters } ∧ (∀ c, c ≠ b → t.baler c = s.baler c) ∧
          (r ∉ j.syncs → Counted s t (figBaler 3 b) 1) ∧ ∃ l, (∀ x, x ∈ l ↔ x = r ∨ x ∈ j.syncs) ∧
          t.baler b = { s.baler b with job := some { j with syncs := l, flushes := j.flushes ++ [src] } })) ∧
        (s.balerClaimed b = true → r < j.recs.length → src ∈ j.flushes → exec i s = .next s)

/-! ### Boundaries, bring-up, power and temperature -/

/-- STEP_BOUNDARY counts a step, outside fallow, frost and TRIPPED, at a tick of the slice in progress, and no output but a TOUT
ball's level leaves earlier than two steps after its own; SLICE_BOUNDARY counts a slice and 512 REFCLK periods of node time, and
the region and control words that wait on a die take effect; EPOCH_BOUNDARY, or the end of slice 4,095, starts the next epoch,
where a written INCR and a step of node time take effect and a requested run starts with trigger number 0 and every condition
enabled; the count of epochs goes on where its 32-bit number wraps. In frost and without power none of them does anything. -/
def Obligations.BoundariesCountTime : Prop :=
  ∀ (s : State) (tick : BitVec 12),
    let n : Int := s.time.sec * (1000000000 * 2 ^ 32) + s.time.v
    let shows := fun (t : State) (x : Int) => (t.time.sec : Int) = x / (1000000000 * 2 ^ 32) % 2 ^ 48 ∧
      (t.time.v : Int) = x % (1000000000 * 2 ^ 32)
    let incr := s.time.incrDue.getD s.time.incr
    let epoch := s.clock.epoch + 1
    let crossed := fun (t : State) => t.clock.epoch = epoch ∧ t.clock.slice = 0 ∧ t.fullEpoch = s.fullEpoch + 1 ∧
      shows t (n + 511 * s.time.incr + s.time.stepDue.getD 0 * 65536 + incr) ∧ t.time.incr = incr ∧
      t.time.incrDue = none ∧ t.time.stepDue = none ∧
      (s.core.startReq = true → s.core.stopReq = false → s.core.running = false → s.node.newEpoch = none → s.node.realign = none →
        s.node.script = none → t.core.running = true ∧ t.core.startAt = (s.fullEpoch + 1) * 2 ^ 24 ∧
          t.core.nextSl = (s.fullEpoch + 1) * 2 ^ 12 ∧ t.trig.nextNum = 0 ∧ t.trig.mask = 0xFFFF)
    let stands := fun (i : Instr) => exec i s = .next s
    (s.live = false ∨ deepState s.node.pstate = true → stands (.stepBoundary tick)) ∧
    (s.live = true → deepState s.node.pstate = false → Answers (.stepBoundary tick) s (fun t =>
      t.clock = { s.clock with step := s.clock.step + 1, tick := if s.clock.tick < tick then tick else s.clock.tick } ∧
      ((∀ x, x ∈ s.pcie.outQ → s.clock.step ≤ x.1) →
        ∃ l, t.pcie.out = s.pcie.out ++ l ∧ ∀ o, o ∈ l → ∃ k b, o = .tout k b))) ∧
    (s.live = false ∨ s.node.pstate = .frost → stands .sliceBoundary ∧ stands .epochBoundary) ∧
    (s.live = true → s.node.pstate ≠ .frost →
      (s.clock.epochDone = true → exec .sliceBoundary s = .next { s with clock := { s.clock with epochDone := false } }) ∧
      (s.clock.slice ≠ 0xFFF → stands .epochBoundary) ∧
      (s.clock.epochDone = false → s.clock.slice ≠ 0xFFF → Answers .sliceBoundary s (fun t =>
        t.clock = { s.clock with slice := s.clock.slice + 1, tick := 0 } ∧ shows t (n + 512 * s.time.incr) ∧
        ∀ d, d < 8 → (s.fe d).stopped = false → s.node.pstate ≠ .fallow →
          (∀ x, (s.fe d).regionWait = some x → (t.fe d).region = Trip.all x) ∧
          (t.fe d).tdcCtl = (s.fe d).tdcWait.getD (s.fe d).tdcCtl ∧ (t.fe d).feCtl = (s.fe d).feWait.getD (s.fe d).feCtl)) ∧
      (s.clock.slice = 0xFFF → s.time.w0.getLsbD 47 = false →
        Answers .epochBoundary s (fun t => crossed t ∧ t.clock.epochDone = true) ∧
        (s.clock.epochDone = false → Answers .sliceBoundary s crossed)))

/-- EPOCH_RESTART sets the counts to the new epoch, lets the FE dies form slices again, starts their setting sweeps and advances
node time to that edge; the loss of REFCLK starts holdover on every die with event REFLOST, in TRIPPED too, and its return is
reported once by REFBACK, when tally unit 7 has found it good since; a sheaf past its watchdog is a fault with cause 7;
SLICE_RELEASE stores the next slice in the ring from W on and goes to the next one. -/
def Obligations.EpochsRestartAndSlicesLeave : Prop :=
  ∀ s : State,
    (s.node.newEpoch = none → exec .epochRestart s = .next s) ∧
    (∀ n, s.node.newEpoch = some n → s.counting = true → 0 < s.time.incr → s.edgesTo n ≤ 512 → s.node.script = none →
      Answers .epochRestart s (fun t => t.clock.epoch = BitVec.ofNat 32 n ∧ t.clock.slice = 0 ∧ t.clock.step = s.clock.step ∧
        t.node.newEpoch = none ∧ t.time.incr = s.time.incr ∧ (s.core.startReq = true → t.core.running = true) ∧
        ∀ d, d < 8 → (t.fe d).stopped = false ∧ (t.fe d).sweep = true)) ∧
    (∀ tick, s.node.pwrgd = true → s.node.refLost = false → Answers (.refLost tick) s (fun t =>
      Raised s t 0x2001 ∧ t.node.refLost = true ∧ ∀ d, d < 8 →
        (t.fe d).hold = some ((s.fe d).hold.getD (s.coarse tick + 9)))) ∧
    (s.node.pwrgd = true → s.node.refLost = true → s.node.refBack = false → s.node.refSeen = true →
      Answers .refBack s (fun t => Raised s t 0x2003 ∧ t.node.refBack = true ∧ t.node.refLost = true)) ∧
    (s.node.refLost = false ∨ s.node.refBack = true ∨ s.node.refSeen = false → exec .refBack s = .next s) ∧
    (∀ g : Fin 128,
      let x := s.gleaner g
      let due := s.live = true ∧ s.node.pstate = .active ∧ s.loaded = true ∧ x.sheaf ≠ none ∧ x.fault = none ∧ s.swdog ≤ x.watch
      (due → exec (.sheafWatchdog g) s = .next (s.setGleaner g { x with fault := some (7, x.pc) })) ∧
      (¬due → exec (.sheafWatchdog g) s = .next s)) ∧
    (s.canRelease = false → exec .sliceRelease s = .next s) ∧
    (s.canRelease = true → s.core.gapFrom = none → s.ring.w < s.ring.size →
      let q := s.core.nextSl
      let x := s.releaseOf q
      let n := x.marks.length + x.chrs.length + 1 + s.core.service.length
      Answers .sliceRelease s (fun t => t.core.nextSl = q + 1 ∧ t.ring.newest = some q ∧ t.core.service = [] ∧
        t.ring.w = (s.ring.w + (n + 6) / 7) % s.ring.size ∧ (∀ d, d ∈ t.core.done → d ∈ s.core.done ∧ reachedMod 44 (q % 2 ^ 44) d.seq = false) ∧
        t.clock = s.clock))

/-- A rise of PWRGD and the restart from TRIPPED reset the node to SEED with the memories empty, the trips of the hour, the
flashes and the always-on count kept and the cause recorded; SEED_END takes the settings of OTP into SELFTEST; SELFTEST_FINISHED
enters lockstep when both hubs passed; the fall of PWRGD holds the node in reset. The test port: an instruction is in force on
its die, or BYPASS where it would drive outside SEED, and IDCODE puts out the die's code; TEST_LOGIC_RESET returns every die to
IDCODE. A rail fault raises RAILFAULT and the stop of the crystal is noted; both change nothing else. -/
def Obligations.TheNodeComesUpAndIsTested : Prop :=
  (∀ s : State,
     let reset := fun (t : State) (cause : BitVec 2) =>
       t = { State.reset with
         pending := s.pending, free := s.free, fes := t.fes, pcie := t.pcie, red := t.red, hay := t.hay, thermal := t.thermal
         node := { NodeCtl.init with blank := s.node.blank, jtag := s.node.jtag, refLost := t.node.refLost }
         clock := { Clock.init with evals := s.clock.evals }
         loopA := { Loop420.init with meas := s.loopA.meas }, loopB := { Loop420.init with meas := s.loopB.meas } } ∧
       t.node.mode = .seed ∧ t.node.pwrgd = true ∧ t.node.tripped = false ∧ t.thermal.trips = s.thermal.trips ∧
       t.pcie.epA.cause = cause ∧ t.pcie.epB.cause = cause ∧ t.pcie.rings = [] ∧
       (∀ d, d < 8 → (t.fe d).mask = s.node.blank) ∧ t.hay.storeA.log = s.hay.storeA.log ∧ t.hay.storeB.log = s.hay.storeB.log
     let alive := s.red.hubA.dead = false
     let x := s.hay.storeA
     let good := fun (r : SelftestResult) => r.failed = [] ∧ r.dev0 = r.dev1 ∧ (r.dev0 = 16 ∨ r.dev0 = 24)
     (∀ refclk, Answers (.powerOnReset refclk none none) s (fun t => reset t 0 ∧ t.node.refLost = !refclk)) ∧
     (s.mayRestart = false → exec .tripRestart s = .next s) ∧
     (s.mayRestart = true → Answers .tripRestart s (fun t => reset t 1)) ∧
     (s.live = true → s.node.mode = .seed → alive → Answers .seedEnd s (fun t =>
       t.node.mode = .selftest ∧ t.node.otpRead = true ∧ t.hay.up = true ∧
       t.node.nodeId = BitVec.ofNat 16 (x.setting 0 / 2 ^ 48) ∧ t.node.tripOtp = (x.setting 0).testBit 14 ∧
       t.node.reqSig = (x.setting 0).testBit 13 ∧ t.node.simplex = (x.setting 0).testBit 15 ∧
       t.time.w0 = BitVec.ofNat 64 (x.setting 10) ∧ t.clock = s.clock ∧ t.tables = s.tables ∧ t.gmem = s.gmem)) ∧
     (s.node.mode ≠ .seed → exec .seedEnd s = .next s) ∧
     (∀ a b, s.live = true → s.node.mode = .selftest → s.node.stdone = false → alive → good a →
       (s.node.simplex = true → Answers (.selftestFinished a b) s (fun t =>
         t.node.stdone = true ∧ t.node.mode = .selftest ∧ t.ring.swept = true ∧ t.ring.density = a.dev0 ∧
         t.red.active = .a ∧ t.red.hubA.role = .simplex ∧ t.red.lockstep = s.red.lockstep)) ∧
       (s.node.simplex = false → s.red.hubB.dead = false → good b → Answers (.selftestFinished a b) s (fun t =>
         t.node.stdone = true ∧ t.node.mode = .selftest ∧ t.ring.swept = true ∧ t.ring.density = Nat.min a.dev0 b.dev0 ∧
         t.red.lockstep = true ∧ Raised s t 0x6005))) ∧
     (∀ a b, s.node.stdone = true → exec (.selftestFinished a b) s = .next s) ∧
     (s.node.pwrgd = true → Answers .pwrgdFall s (fun t => t.node.pwrgd = false ∧ t.node.tripped = false ∧ t.trig.busy = false ∧
       t.loopA.set_ = 896 ∧ t.loopB.set_ = 896 ∧ t.thermal = { s.thermal with latch := false, cool := none } ∧
       t.tables = [] ∧ t.gmem = ⟨[], [], []⟩ ∧ t.pending = s.pending)) ∧
     (s.node.pwrgd = false → exec .pwrgdFall s = .next s)) ∧
  (∀ s : State,
     (∀ die op,
       let open_ := s.live = true ∧ s.node.mode = .seed
       let acts := fun (o : JtagOp) => Answers (.jtagInstruction die op) s (fun t =>
         t = { s with node := { s.node with jtag := t.node.jtag }, pcie := { s.pcie with out := t.pcie.out } } ∧
         (∀ d : Fin 10, Tbl.get .idcode t.node.jtag d = if d = die then o else Tbl.get .idcode s.node.jtag d) ∧
         t.pcie.out = s.pcie.out ++ [.tdo die (if o = .idcode then idcodeOf die else 0)])
       (op.drives = true → ¬open_ → acts .bypass) ∧ (op.drives = false ∨ open_ → acts op)) ∧
     (∀ die, idcodeOf die = (2 : BitVec 4) ++ (if die = 0 ∨ die = 9 then (0x4096 : BitVec 16) else 0x4090) ++
       Config.manufacturerId ++ (1 : BitVec 1)) ∧
     exec .testLogicReset s = .next { s with node := { s.node with jtag := [] } } ∧
     (∀ die rail, s.live = true → Answers (.railFault die rail) s (fun t =>
       t = { s with pcie := { s.pcie with rings := t.pcie.rings }, node := { s.node with script := t.node.script }
                    hay := { s.hay with fifo := t.hay.fifo } } ∧ Raised s t 0x7008)) ∧
     (∀ die rail, s.live = false → exec (.railFault die rail) s = .next s) ∧
     exec .xtalStop s = .next { s with thermal := { s.thermal with xtal := false } })

/-- EVALUATION counts 100 us, sets each hub's alarm at 100 degrees and clears it below 97, moves its throttle level by at most
one step, in TRIPPED too, and sets each safety loop: 22 mA in TRIPPED, 3.5 mA without power or a valid source, the test current,
or 4 mA at LO to 20 mA at HI within 3.8 and 20.5 mA. LOOPFAULT is raised when set and measured current differ by more than 0.25
mA. TRIP with two agreeing sensors enters TRIPPED, with the outputs at their safe levels; it restarts by itself only under
TRIPMODE and up to the third trip of an hour. Bands and throttle levels are held in codes whose neighbours differ in one bit. -/
def Obligations.ThermalSupervision : Prop :=
  ((List.range 5).map bandCode = [0b000, 0b001, 0b011, 0b010, 0b110] ∧ (∀ b, b < 5 → bandOf (bandCode b) = b) ∧
    ∀ n, n < 8 → levelOfCode (levelCode n) = n ∧ (n < 7 → ∃ k : Fin 3, levelCode (n + 1) = levelCode n ^^^ (1 <<< k.val))) ∧
  (∀ lo hi x, lo < hi → (x = 256 * lo → loopCurrent lo hi x = 1024) ∧ (x = 256 * hi → loopCurrent lo hi x = 5120) ∧
    973 ≤ loopCurrent lo hi x ∧ loopCurrent lo hi x ≤ 5248) ∧
  ∀ (s : State),
    let lev := fun (t : State) (h : Hub) => t.thermal.levelOf h
    (∀ qs ma mb, Answers (.evaluation qs ma mb) s (fun t =>
      t.clock = { s.clock with evals := s.clock.evals + 1 } ∧ t.tables = s.tables ∧ t.gmem = s.gmem ∧
      (∀ h, let l := t.loop420 h
        let w := (s.loop420 h).word.toNat
        l.word = (s.loop420 h).word ∧ l.meas = (if h = .a then ma else mb) ∧
        (s.node.tripped = true → l.set_ = 5632) ∧ (s.node.tripped = false → s.node.pwrgd = false → l.set_ = 896) ∧
        (s.live = true → w / 2 ^ 61 = 5 → l.set_ = w / 2 ^ 10 % 2 ^ 13) ∧
        (s.live = true → w / 2 ^ 61 ≠ 5 → t.loopSource h w = none → l.set_ = 896) ∧
        ∀ x, s.live = true → w / 2 ^ 61 ≠ 5 → t.loopSource h w = some x → l.set_ = loopCurrent (loopLo w) (loopHi w) x) ∧
      (s.live = true ∨ s.node.tripped = true → ∀ h,
        ((∃ q, q ∈ t.thermal.view h ∧ 400 ≤ q) → t.thermal.alarm h = true) ∧
        ((∀ q, q ∈ t.thermal.view h → q < 388) → t.thermal.alarm h = false) ∧
        lev t h ≤ lev s h + 1 ∧ lev s h ≤ lev t h + 1))) ∧
    (∀ h : Hub,
      let l := s.loop420 h
      let off := 64 < ((l.set_ : Int) - l.meas).natAbs
      (s.live = true → off → Answers (.loopFault h) s (fun t => Raised s t 0x7004 ∧ t.loop420 h = l ∧
        Counted s t (figEnviron 5 2 h.idx) 1)) ∧
      (s.live = false ∨ ¬off → exec (.loopFault h) s = .next s)) ∧
    ∀ (die : Fin 10) (sensors : BitVec 4),
      let two := ∃ i j, i < j ∧ sensors.getLsbD i = true ∧ sensors.getLsbD j = true
      (s.live = true → two → Answers (.trip die sensors) s (fun t =>
        t.node = { s.node with tripped := true } ∧ t.trig.busy = true ∧ t.loopA.set_ = 5632 ∧ t.loopB.set_ = 5632 ∧
        t.thermal.trips = s.recentTrips ++ [s.clock.evals] ∧ t.thermal.recordNew = true ∧
        (t.thermal.latch = false ↔ s.node.tripRt.getD s.node.tripOtp = true ∧ s.recentTrips.length < 3) ∧
        t.tables = s.tables ∧ t.gmem = s.gmem ∧ t.clock = s.clock ∧ ∀ n, n < 8 → (t.loop n).out = false)) ∧
      (s.live = false ∨ ¬two → exec (.trip die sensors) s = .next s)

/-! ### Memory -/

/-- The window, in STANDBY: GO stores the staged line on the test line or the staged word with its parity bit, RD reads the
target through the check of each hub, a hub's error pattern in its own read-back only, and both count in both hubs; elsewhere
neither does anything. A line that is read good is returned as it is and counted nowhere; one that fails its first try is tried
again and counted, one that fails three tries is poisoned, with event MEMPOISON and a local error. The refresh interval of a hub
is halved in band B4. -/
def Obligations.MemoryIsChecked : Prop :=
  ∀ (s : State) (h : Hub),
    let w := s.win h
    let open_ := s.live = true ∧ s.node.mode = .standby
    let n := s.ring.testStart + w.lineNo.toNat
    let after := fun (x : Window) => ({ x with done := true, count := x.count + 1 } : Window)
    let stored := fun (x : Window) => after { x with word := x.data.setWidth 32, wordPar := x.swpar }
    let readsLine := fun (k : Hub) (err : Line) =>
      let x := s.win k
      let m := s.ring.testStart + x.lineNo.toNat
      let l := s.readLine m ^^^ (if k = h then err else 0)
      after { x with read := l, err := !lineGood m l, misdir := !lineAtHome m l }
    let readsWord := fun (k : Hub) (err : Line) =>
      let x := s.win k
      let e : Line := if k = h then err else 0
      let v := x.word ^^^ e.setWidth 32
      let p := x.wordPar ^^ e.getLsbD 32
      after { x with read := BitVec.ofNat 1024 (v.toNat + p.toNat * 2 ^ 32), err := !parityOk v p, misdir := false }
    (¬open_ → exec (.go h) s = .next s ∧ ∀ err, exec (.rd h err) s = .next s) ∧
    (open_ → w.target = 0 → Answers (.go h) s (fun t =>
      t = { s with window := after s.window, windowB := after s.windowB, ring := { s.ring with lines := t.ring.lines } } ∧
      t.lineAt n = BitVec.ofNat 1024 (w.data.toNat + w.mark.toNat * 2 ^ 960 + w.crc.toNat * 2 ^ 992) ∧
      ∀ m, m ≠ n → t.lineAt m = s.lineAt m)) ∧
    (open_ → w.target = 1 → exec (.go h) s =
      .next { s with window := stored s.window, windowB := stored s.windowB }) ∧
    (∀ err, open_ → (∀ k, (s.win k).target = 0) →
      exec (.rd h err) s = .next { s with window := readsLine .a err, windowB := readsLine .b err }) ∧
    (∀ err, open_ → (∀ k, (s.win k).target = 1) →
      exec (.rd h err) s = .next { s with window := readsWord .a err, windowB := readsWord .b err }) ∧
    (s.live = true → exec (.refreshCommand .a) s = .next { s with node := { s.node with refreshA := s.band 0 == 4 } } ∧
      exec (.refreshCommand .b) s = .next { s with node := { s.node with refreshB := s.band 9 == 4 } }) ∧
    (∀ m errs, s.live = true → s.ring.isLocked m = true → exec (.lineFetch h m errs) s = .next s) ∧
    (∀ m errs, s.live = true → s.ring.swept = true → s.trig.cap = none → m < s.ring.size → s.ring.isLocked m = false →
      let l := s.lineAt m
      (lineGood m (l ^^^ errs.getD 0 0) = true → exec (.lineFetch h m errs) s = .next s) ∧
      (lineGood m (l ^^^ errs.getD 0 0) = false → lineGood m (l ^^^ errs.getD 1 0) = true →
        Answers (.lineFetch h m errs) s (fun t => t = { s with counters := t.counters } ∧ Counted s t (figMem h 2 0) 1)) ∧
      ((∀ i, i < 3 → lineGood m (l ^^^ errs.getD i 0) = false) → Answers (.lineFetch h m errs) s (fun t =>
        Raised s t 0x4001 ∧ Counted s t (figMem h 3 0) 1 ∧ (.mempoison, s.clock.step) ∈ (t.hubRed h).errs ∧
        (h = s.red.active → s.ring.entry m = none → (lineHead (t.lineAt m)).poison = true ∧
          ∀ k, k ≠ m → k < s.ring.size → t.lineAt k = s.lineAt k))))

/-- The merge buffer: a write takes a free entry or joins its line's, and no reader sees a difference but in the bytes written;
an entry whose line is wholly written, or that is idle, is locked, and its write then puts the merged line into memory with a
new check and frees it; a write to a locked line waits. Each hub's scrubber reads the lines in address order, leaves a good line
alone, and after the last line begins a new pass; a word of hub SRAM that fails its parity is reported. A word that fails its
parity is replayed up to three times and then accepted, poisons its record, and is a local error of the hub that holds it; flips
that parity does not show change the record. -/
def Obligations.LinesAreMergedAndScrubbed : Prop :=
  ∀ (s : State) (line : Nat),
    let onRing := fun (t : State) (m : List MergeEntry) => t = { s with ring := { s.ring with merge := m } }
    let free := s.ring.mergeQ.any (fun x => x.1 == line) = false
    (∀ off bs, s.live = true → line < s.ring.lineCount → off + bs.length ≤ 128 → s.ring.entry line = none → free →
      s.ring.merge.length < 32 → ∃ e, exec (.mergeWrite line off bs) s = .next { s with
          ring := { s.ring with merge := s.ring.merge ++ [e] } } ∧ e.line = line ∧
        (∀ i, i < 128 → e.valid.getLsbD i = decide (off ≤ i ∧ i < off + bs.length)) ∧
        (∀ i, i < bs.length → e.data.toNat / 2 ^ (8 * (off + i)) % 256 = (bs.getD i 0).toNat) ∧
        (e.locked = true ↔ bs.length = 128)) ∧
    (∀ off bs e, s.live = true → line < s.ring.lineCount → off + bs.length ≤ 128 → s.ring.entry line = some e → e.locked = false →
      free → ∃ e', exec (.mergeWrite line off bs) s = .next { s with
          ring := { s.ring with merge := s.ring.merge.filter (fun x => x.line != line) ++ [e'] } } ∧ e'.line = line ∧
        (∀ i, i < 128 → e'.valid.getLsbD i = (e.valid.getLsbD i || decide (off ≤ i ∧ i < off + bs.length))) ∧
        (∀ i, i < 128 → e'.data.toNat / 2 ^ (8 * i) % 256 =
          if off ≤ i ∧ i < off + bs.length then (bs.getD (i - off) 0).toNat else e.data.toNat / 2 ^ (8 * i) % 256) ∧
        (e'.locked = true ↔ ∀ i, i < 128 → e'.valid.getLsbD i = true)) ∧
    (∀ off bs e, s.live = true → line < s.ring.lineCount → off + bs.length ≤ 128 → s.ring.entry line = some e → e.locked = true →
      Answers (.mergeWrite line off bs) s (fun t =>
        t = { s with ring := { s.ring with mergeQ := s.ring.mergeQ ++ [(line, off, bs)] }, counters := t.counters } ∧
        Counted s t (figMemBoth 8 2) 1)) ∧
    (s.live = true → Answers (.mergeEntryIdle line) s (fun t => onRing t t.ring.merge ∧
      t.ring.merge = s.ring.merge.map (fun e => if e.line = line then { e with locked := true } else e))) ∧
    (∀ e errs, s.live = true → s.ring.entry line = some e → e.locked = true → s.ring.mergeQ = [] →
      e.valid = BitVec.allOnes 128 ∨ lineGood line (s.lineAt line ^^^ errs.getD 0 0) = true → Answers (.lineWriteDone line errs) s (fun t =>
      t = { s with ring := { s.ring with merge := t.ring.merge, lines := t.ring.lines }, counters := t.counters } ∧
      t.ring.merge = s.ring.merge.filter (fun x => x.line ≠ line) ∧ linePayload (t.lineAt line) = linePayload (overlay (s.lineAt line) e) ∧
      Counted s t (figMemBoth 8 (if e.valid = BitVec.allOnes 128 then 0 else 1)) 1 ∧
      (e.valid ≠ BitVec.allOnes 128 → (lineHead (t.lineAt line)).init = false) ∧
      lineAtHome line (t.lineAt line) = true ∧ ∀ m, m ≠ line → t.lineAt m = s.lineAt m)) ∧
    (∀ errs, s.ring.isLocked line = false → exec (.lineWriteDone line errs) s = .next s) ∧
    (∀ h errs, s.live = true → s.ring.swept = true → s.node.pstate = .active ∨ s.node.pstate = .hush →
      let x := s.ring.scrubOf h
      (line ≠ x.next ∨ s.ring.isLocked line = true → exec (.scrubRead h .line line errs) s = .next s) ∧
      (line = x.next → s.ring.isLocked line = false → s.loaded = false → line < s.ring.size → s.ring.nearWrite line = true →
        exec (.scrubRead h .line line errs) s = .next { s with ring := s.ring.setScrub h { x with next := line + 1 } }) ∧
      (line = x.next → s.ring.isLocked line = false → line + 1 = s.ring.lineCount →
        lineGood line (s.lineAt line ^^^ errs.getD 0 0) = true → Answers (.scrubRead h .line line errs) s (fun t =>
          let y : Scrub := { next := 0, passes := x.passes + 1, since := s.clock.evals, rate := (t.ring.scrubOf h).rate }
          t = { s with ring := s.ring.setScrub h y })) ∧
      (errs.getD 0 0 = 0 → ∀ target, target ≠ .line → exec (.scrubRead h target line errs) s = .next s) ∧
      (errs.getD 0 0 ≠ 0 →
        Answers (.scrubRead h .sramTable line errs) s (fun t => Raised s t 0x4004 ∧ Counted s t (figMem h 6 7 8) 1) ∧
        Answers (.scrubRead h .sramWorking line errs) s (fun t => Counted s t (figMem h 6 7 9) 1 ∧
          (h = s.red.active → Tbl.get false t.gmem.tags line = true)) ∧
        Answers (.scrubRead h .sramFree line errs) s (fun t => Raised s t 0x4004 ∧ Counted s t (figMem h 6 7 10) 1 ∧
          (h = s.red.active → Tbl.get false t.gmem.tags line = false)))) ∧
    ∀ stage err, s.live = true →
      let n := Tbl.get 0 s.gmem.replays (stageCode stage)
      let held := fun (t : State) (k : Nat) => Tbl.get 0 t.gmem.replays (stageCode stage) = k
      let good := arrivesOk (s.heldWord stage) err = true
      let first := fun (b : Fin 64) (w : Fin 3) (t : State) (p : FeRec → FeRec → Prop) =>
        stage = .blockFifo b w → ∀ r rest, (s.block b).fifo = r :: rest → ∃ r', (t.block b).fifo = r' :: rest ∧ p r r'
      (good → Answers (.parityReplay stage err) s (fun t => held t 0 ∧ t.counters = s.counters ∧ t.red = s.red ∧ ∀ b w,
        first b w t (fun r r' => r' = { r with bits := r.bits ^^^ (err.setWidth 32).setWidth 96 <<< (32 * w.val) }))) ∧
      (¬good → n < 3 → Answers (.parityReplay stage err) s (fun t => held t (n + 1) ∧
        t = { s with gmem := { s.gmem with replays := t.gmem.replays }, counters := t.counters } ∧
        ∀ h, stageOwner stage = some h → Counted s t (figRedund 6 0 (h.idx + 1)) 1)) ∧
      (¬good → 3 ≤ n → Answers (.parityReplay stage err) s (fun t => held t 0 ∧
        (∀ h, stageOwner stage = some h →
          (.wordpoison, s.clock.step) ∈ (t.hubRed h).errs ∧ Counted s t (figRedund 7 1 (h.idx + 1) (stageScope stage)) 1) ∧
        ∀ b w, first b w t (fun r r' => ∃ p, r' = { r with poison := some p } ∧ (p = true ↔ w ≠ 2 ∧ r.poison ≠ some false))))

/-! ### The host link -/

/-- Doorbells and control words of the rings: a write acts only through an endpoint that is served; in SEED it is dropped and
counted; a value in range takes the index, one out of range stops the ring with ERR; enabling a ring starts it at its first
entry with phase 1, and its size is taken only while it is not enabled. -/
def Obligations.RingsTakeDoorbells : Prop :=
  ∀ (s : State) (h : Hub),
    let e := s.ep h
    let u : State := { s with pcie := { s.pcie with touched := true } }
    let writes := fun (i : Instr) => (∃ k v, i = .sqtail h k v) ∨ (∃ k v, i = .cqhead h k v) ∨
      (∃ k v, i = .commandRingEnable h k v) ∨ (∃ k v, i = .dataRingEnable h k v) ∨ (∃ k v, i = .dcons h k v) ∨ ∃ k v, i = .econs h k v
    (∀ i, writes i → s.barServed h = false → exec i s = .next s) ∧
    (∀ i, writes i → s.barServed h = true → s.node.mode = .seed → exec i s =
      .next (s.setEp h { e with seedwr := if e.seedwr = 0xFFFFFFFF then 0xFFFFFFFF else e.seedwr + 1 })) ∧
    (s.barServed h = true → s.node.mode ≠ .seed →
      (∀ (k : Fin 4) (v : BitVec 16),
        let r := s.cring k
        exec (.sqtail h k v) s = .next (u.setCring k
          (if v.toNat < 2 ^ (r.sqlog.toNat + 4) then { r with sqtail := v.toNat } else { r with run := false, err := true })) ∧
        exec (.cqhead h k v) s = .next (u.setCring k
          (if v.toNat < 2 ^ (r.cqlog.toNat + 4) then { r with cqhead := v.toNat } else { r with run := false, err := true }))) ∧
      (∀ (k : Fin 8) (v : BitVec 32) (x : BitVec 16),
        let r := s.dring k
        exec (.dcons h k v) s = .next (u.setDring k
          (if (r.dprod - v).toNat ≤ 2 ^ (r.dlog.toNat + 14) then { r with dcons := v } else { r with run := false, err := true })) ∧
        exec (.econs h k x) s = .next (u.setDring k
          (if x.toNat < 2 ^ (r.elog.toNat + 4) then { r with econs := x.toNat } else { r with run := false, err := true }))) ∧
      (∀ (k : Fin 4) (v : BitVec 32),
        let r := s.cring k
        let r' := { r with vec := BitVec.ofNat 6 (v.toNat / 2 ^ 8) }
        (v.getLsbD 31 = false → ∃ a b, exec (.commandRingEnable h k v) s =
          .next (s.setCring k { r' with en := false, run := false, err := false, sqlog := a, cqlog := b }) ∧
          (r.en = true → a = r.sqlog ∧ b = r.cqlog)) ∧
        (v.getLsbD 31 = true → r.en = true → exec (.commandRingEnable h k v) s = .next (u.setCring k { r' with en := true })) ∧
        (v.getLsbD 31 = true → r.en = false → v.toNat % 16 ≤ 12 → v.toNat / 2 ^ 4 % 16 ≤ 12 →
          exec (.commandRingEnable h k v) s = .next (u.setCring k { r' with
            en := true, run := true, sqlog := BitVec.ofNat 4 v.toNat, cqlog := BitVec.ofNat 4 (v.toNat / 2 ^ 4)
            sqhead := 0, cqtail := 0, phase := true }))) ∧
      ∀ (k : Fin 8) (v : BitVec 32),
        let r := s.dring k
        let r' := { r with ro := v.getLsbD 29, vec := BitVec.ofNat 6 (v.toNat / 2 ^ 16), icnt := BitVec.ofNat 8 v.toNat }
        (v.getLsbD 31 = true → r.en = true → exec (.dataRingEnable h k v) s = .next (u.setDring k { r' with en := true })) ∧
        (v.getLsbD 31 = true → r.en = false → v.toNat / 2 ^ 12 % 16 ≤ 11 → v.toNat / 2 ^ 8 % 16 ≤ 12 →
          exec (.dataRingEnable h k v) s = .next (u.setDring k { r' with
            en := true, compact := v.getLsbD 30, elog := BitVec.ofNat 4 (v.toNat / 2 ^ 12), dlog := BitVec.ofNat 4 (v.toNat / 2 ^ 8)
            run := true, dprod := 0, dcons := 0, etail := 0, econs := 0, seqnext := 0, since := 0
            timer := none })))

/-- REGISTER_WRITE: an access with a byte missing or misaligned changes nothing; a whole word writes the ring bases while the
ring is not enabled, the select register, the mask, SCRATCH and the window's staging registers in STANDBY; a 64-bit access
writes both words; the write to a window's staging register reaches the windows of both hubs, and a vector's control word takes
its write. CAUSE_CLEAR clears the bits written as ones; a read of SEEDWR clears it; a 32-bit read of the step count latches its
upper half. -/
def Obligations.RegistersAreWritten : Prop :=
  ∀ (s : State) (h : Hub),
    let e := s.ep h
    let out := fun (o : Out) => ({ s with pcie := { s.pcie with out := s.pcie.out ++ [o] } } : State)
    (s.barServed h = false → ∀ off v wide full, exec (.registerWrite h off v wide full) s = .next s) ∧
    (s.barServed h = false → ∀ v wide, exec (.causeClear h v) s = .next s ∧ exec (.seedwrRead h) s = .next s ∧
      exec (.stepLoRead h wide) s = .next s) ∧
    (s.barServed h = true → s.node.mode ≠ .seed →
      (∀ off v wide full, full = false ∨ off.toNat % 4 ≠ 0 ∨ (wide = true ∧ off.toNat % 8 ≠ 0) →
        exec (.registerWrite h off v wide full) s = .next s) ∧
      ∀ (x : BitVec 64),
        let lo : BitVec 32 := x.setWidth 32
        let one := fun (off : BitVec 17) (t : State) => exec (.registerWrite h off x false true) s = .next t
        one 0x2C { s with pcie := { s.pcie with mask := x.setWidth 4 } } ∧ one 0x34 (s.setEp h { e with scratch := lo }) ∧
        (∀ k : Fin 4, (s.cring k).en = false → exec (.registerWrite h (BitVec.ofNat 17 (0x1000 + 32 * k)) x true true) s =
          .next (s.setCring k { s.cring k with sqbase := x })) ∧
        (∀ k : Fin 4, (s.cring k).en = true → exec (.registerWrite h (BitVec.ofNat 17 (0x1000 + 32 * k)) x true true) s = .next s) ∧
        (∀ k : Fin 8, (s.dring k).en = false → exec (.registerWrite h (BitVec.ofNat 17 (0x1100 + 64 * k)) x true true) s =
          .next (s.setDring k { s.dring k with dbase := x })) ∧
        (∀ k : Fin 8, one (BitVec.ofNat 17 (0x1114 + 64 * k)) (s.setDring k { s.dring k with imod := x.setWidth 16 })) ∧
        ((∀ i, i < 16 → x.toNat / 2 ^ (4 * i) % 16 ≤ 6) → exec (.registerWrite h 0x1300 x true true) s =
          .next { s with pcie := { s.pcie with select := x } }) ∧
        (s.node.mode = .standby →
          one 0x2088 { s with window := { s.window with mark := lo }, windowB := { s.windowB with mark := lo } } ∧
          one 0x208C { s with window := { s.window with crc := lo }, windowB := { s.windowB with crc := lo } } ∧
          one 0x2008 { s with window := { s.window with swpar := x.getLsbD 0 }, windowB := { s.windowB with swpar := x.getLsbD 0 } } ∧
          ∀ i, i < 30 → ∃ d e, one (BitVec.ofNat 17 (0x2010 + 4 * i)) { s with
              window := { s.window with data := d }, windowB := { s.windowB with data := e } } ∧
            ∀ j, j < 30 →
              d.toNat / 2 ^ (32 * j) % 2 ^ 32 = (if j = i then lo.toNat else s.window.data.toNat / 2 ^ (32 * j) % 2 ^ 32) ∧
              e.toNat / 2 ^ (32 * j) % 2 ^ 32 = (if j = i then lo.toNat else s.windowB.data.toNat / 2 ^ (32 * j) % 2 ^ 32)) ∧
        (s.node.mode ≠ .standby → ∀ i, i < 128 → one (BitVec.ofNat 17 (0x2000 + 4 * i)) s)) ∧
    (s.barServed h = true → ∀ (i : Fin 64) (x : BitVec 32), (e.pba = 0 ∨ e.msix = false) →
      let old := Tbl.get vectorAtReset e.vectors i
      Answers (.registerWrite h (BitVec.ofNat 17 (0x1000C + 16 * i)) (x.setWidth 64) false true) s (fun t =>
        t = s.setEp h { e with vectors := (t.ep h).vectors } ∧
        Tbl.get vectorAtReset (t.ep h).vectors i = (old.setWidth 96).setWidth 128 ||| (x.setWidth 128) <<< 96 ∧
        ∀ j, j ≠ i.val → Tbl.get vectorAtReset (t.ep h).vectors j = Tbl.get vectorAtReset e.vectors j)) ∧
    (s.barServed h = true →
      (∀ v, exec (.causeClear h v) s = .next { s with pcie := { s.pcie with cause := s.pcie.cause &&& ~~~(v.setWidth 4) } }) ∧
      exec (.seedwrRead h) s = .next ((out (.read h 0x30 (e.seedwr.setWidth 64))).setEp h { e with seedwr := 0 }) ∧
      exec (.stepLoRead h true) s = .next (out (.read h 0x38 (BitVec.ofNat 64 s.clock.step))) ∧
      exec (.stepLoRead h false) s = .next ((out (.read h 0x38 (BitVec.ofNat 64 (s.clock.step % 2 ^ 32)))).setEp h
        { e with stepHi := BitVec.ofNat 32 (s.clock.step / 2 ^ 32) }))

/-- Configuration space and links: a request in the first 100 ms is answered with retry status, a later read with the header
that R273 gives, a write of Command sets bus mastering; PERST high and a hot reset clear the endpoint, PERST low takes the link
down, as does its loss, which is a local error once it has been up; training to L0 brings it up, never that of hub B in simplex.
A message that is pending leaves when its vector is unmasked. -/
def Obligations.EndpointsAnswerAndTrain : Prop :=
  ∀ (s : State) (h : Hub),
    let e := s.ep h
    let on := s.node.pwrgd = true ∧ s.node.tripped = false
    let out := fun (o : Out) => ({ s with pcie := { s.pcie with out := s.pcie.out ++ [o] } } : State)
    let cleared := { Endpoint.init with
      perst := e.perst, wired := e.wired, off := e.off, seedwr := e.seedwr, scratch := e.scratch, stepHi := e.stepHi, cause := e.cause }
    (¬on ∨ e.perst = false ∨ e.linkUp = false → ∀ write reg v early,
      exec (.configurationRequest h write reg v early) s = .next s) ∧
    (on → e.perst = true → e.linkUp = true →
      (∀ write reg v, exec (.configurationRequest h write reg v true) s = .next (out (.retry h))) ∧
      (∀ v, exec (.configurationRequest h false 0 v false) s =
        .next (out (.read h 0x10000 (if h = .a then 0x40961F3B else 0x40971F3B)))) ∧
      (∀ v, exec (.configurationRequest h false 8 v false) s = .next (out (.read h 0x10008 0x11800002))) ∧
      (∀ v : BitVec 32, e.pba = 0 → Answers (.configurationRequest h true 4 v false) s (fun t =>
        t = s.setEp h (t.ep h) ∧ (t.ep h).bme = v.getLsbD 2 ∧ (t.ep h).linkUp = true))) ∧
    (on → e.perst = false → exec (.perst h false) s = .next (s.setEp h { cleared with perst := true })) ∧
    (¬on → ∀ hot, exec (.perst h hot) s = .next s) ∧
    (on → e.linkUp = true → e.wired = false → exec (.perst h true) s = .next (s.setEp h cleared)) ∧
    (e.linkUp = false → exec (.pciedown h false) s = .next s ∧
      exec (.pciedown h true) s = .next (s.setEp h { cleared with perst := false })) ∧
    (e.linkUp = true → e.wired = true → Answers (.pciedown h false) s (fun t =>
      Raised s t 0x5006 ∧ (.pciedown, s.clock.step) ∈ (t.hubRed h).errs ∧ t.ep h = { e with linkUp := false, lstate := 0 })) ∧
    (∀ speed width, on → e.perst = true → e.linkUp = false → e.off = false → (h = .a ∨ s.node.simplex = false) →
      exec (.pcieLinkUp h speed width) s =
        .next (s.setEp h { e with linkUp := true, wired := true, speed := speed, width := width })) ∧
    (∀ speed width, s.node.simplex = true → exec (.pcieLinkUp .b speed width) s = .next s) ∧
    (∀ speed width, e.off = true → exec (.pcieLinkUp h speed width) s = .next s) ∧
    ∀ i : Fin 64, s.barServed h = true → e.msix = true → e.masked = false → e.pba = BitVec.ofNat 64 (2 ^ i.val) →
      Answers (.registerWrite h (BitVec.ofNat 17 (0x1000C + 16 * i)) 0 false true) s (fun t =>
        (t.ep h).pba = 0 ∧ t.pcie.outQ = s.pcie.outQ ++ [(s.clock.step, .msix h i)])

/-- Reads and acknowledgements: a good completion adds its bytes to the command that waits, a bad or missing one ends it with
FAULT; an acknowledgement frees the replay buffer. A part of staging goes to its data ring with its entry when the ring has
room, else the ring stalls, and is dropped and counted when the ring does not run or the part could never fit; service records
go to ring 7; entries are announced at their count or when the moderation timer ends. -/
def Obligations.DataReachesTheHost : Prop :=
  ∀ s : State,
    (∀ (k : Fin 4) (c : Cmd) n, (s.cring k).cmd = some c → s.live = true → readsHost c.word.toNat = true →
      (∀ d, d ∈ s.core.tableDue → d.src ≠ some (.ring k)) → c.word.toNat % 256 ≠ 1 →
      let faults := fun (i : Instr) (row : Nat) => Answers i s (fun t =>
        (t.cring k).cmd = none ∧ Counted s t (figPcie 3 row whole (s.red.active.idx + 1)) 1 ∧ t.core = s.core ∧ t.tables = s.tables ∧
        ∃ a v, t.pcie.outQ = s.pcie.outQ ++ [(s.clock.step, .write a v), (s.clock.step, .msix s.red.active (s.cring k).vec.toNat)] ∧
          v.headD 0 = 0x1F)
      exec (.completionTlp (.ring k) n .success false false) s =
        .next (s.setCring k { s.cring k with cmd := some { c with bytes := c.bytes + n } }) ∧
      faults (.completionTimeout (.ring k)) 0 ∧ (∀ st, st ≠ .success → faults (.completionTlp (.ring k) n st false false) 1) ∧
      faults (.completionTlp (.ring k) n .success true false) 2 ∧ ∀ st ep, faults (.completionTlp (.ring k) n st ep true) 3) ∧
    (∀ x (c : Cmd) n, s.node.script = some x → x.cmd = some c → s.live = true → readsHost c.word.toNat = true →
      (∀ d, d ∈ s.core.tableDue → d.src ≠ some .script) → exec (.completionTlp .script n .success false false) s =
        .next { s with node := { s.node with script := some { x with cmd := some { c with bytes := c.bytes + n } } } }) ∧
    (∀ n, s.live = true → exec (.pcieAck n) s = .next { s with pcie := { s.pcie with
      acked := Nat.max s.pcie.acked n, replay := s.pcie.replay.filter (fun r => decide (n < r.1)) } }) ∧
    (∀ p, s.nextPart 0 = some p → s.live = true → s.mayMaster = true → s.partBusy p 0 = false →
      let r := s.dring p.ring
      let b := (s.partBytes p 0 r.compact).1
      let units := (b.length + 63) / 64
      let entry := fun (t : State) => (t.dring p.ring).etail = (r.etail + 1) % r.entries ∧ (t.dring p.ring).seqnext = r.seqnext + 1
      let taken := fun (t : State) => t.trig = (s.partTaken 0).trig
      (r.run = false → Answers .partDelivery s (fun t => taken t ∧ t.pcie = s.pcie ∧ Counted s t (figPcie 4 2 p.ring) 1)) ∧
      (r.run = true → r.slotFree = true → units ≤ r.units - r.fill → units < r.units → Answers .partDelivery s (fun t =>
        taken t ∧ entry t ∧ (t.dring p.ring).dprod = r.dprod + BitVec.ofNat 32 units ∧ Counted s t (figPcie 4 0 p.ring) 1 ∧
        ∃ data l, t.pcie.outQ = s.pcie.outQ ++ data ++ [(s.clock.step, .write (r.ebase.toNat / 4096 * 4096 + 32 * r.etail) l)] ∧
          l.length = 32 ∧ leAt l 0 8 = r.seqnext.toNat ∧ leAt l 8 4 = r.dprod.toNat ∧ leAt l 12 4 = b.length % 2 ^ 32)) ∧
      (r.run = true → r.slotFree = true → r.units ≤ units → Answers .partDelivery s (fun t =>
        taken t ∧ entry t ∧ (t.dring p.ring).dprod = r.dprod ∧ Counted s t (figPcie 4 1 p.ring) 1)) ∧
      (r.run = true → r.slotFree = false → exec .partDelivery s = .next (s.setDring p.ring { r with stall := true }))) ∧
    (s.nextPart 0 = none → exec .partDelivery s = .next s) ∧
    (∀ q rs rest, s.pcie.svc = (q, rs) :: rest → s.live = true → s.mayMaster = true → (s.dring 7).run = true →
      let r := s.dring 7
      let units := (16 * rs.length + 63) / 64
      (r.slotFree = true → units ≤ r.units - r.fill → Answers .serviceDelivery s (fun t => t.pcie.svc = rest ∧
        (t.dring 7).dprod = r.dprod + BitVec.ofNat 32 units ∧ (t.dring 7).seqnext = r.seqnext + 1 ∧ (t.dring 7).lost = 0)) ∧
      (r.slotFree = false → exec .serviceDelivery s = .next (s.setDring 7 { r with stall := true }))) ∧
    ∀ (k : Fin 8) first, s.live = true → 0 < (s.dring k).since → (s.dring k).timer = some first →
      let cycles := 1200 * if (s.dring k).imod = 0 then 100 else (s.dring k).imod.toNat
      (first * 256 + cycles ≤ (s.clock.step + 1) * 256 →
        Answers (.imodExpiry k) s (fun t => t.dring k = { s.dring k with since := 0, timer := none } ∧
          t.pcie.outQ = s.pcie.outQ ++ [(s.clock.step, .msix s.red.active (s.dring k).vec.toNat)])) ∧
      ((s.clock.step + 1) * 256 < first * 256 + cycles → exec (.imodExpiry k) s = .next s)

/-! ### The ports, time and the partner hub -/

/-- Training of a port copy: a word outside training is ignored; a word of an unaccepted role in DETECT ends in back-off;
otherwise the lane holds the word, in EQ carries out its request within R300, and sends a word in turn with its answer; four
finished lanes go to ALIGN. A timeout of DETECT, LINK or WAKE ends in back-off, of EQ in ALIGN, of ALIGN at the next lower rate
or in back-off; back-off ends in DETECT with the next wait doubled up to 1,000 ms. Agreeing markers within 180 ns take ALIGN to
UP, where the four lanes' equaliser results are logged; in UP a marker in sequence goes on, the second one out of sequence in a
row, a skew above 180 ns or a wake that does not come is an alignment loss; wake sends a marker. -/
def Obligations.PortsTrain : Prop :=
  ∀ (s : State) (h : Hub) (p : Fin 4),
    let c := (s.port p).copy h
    let on := s.lanesOn = true
    let cp := fun (t : State) => (t.port p).copy h
    let set := fun (c' : PortCopy) => s.setPort p ((s.port p).setCopy h c')
    let lost := fun (i : Instr) => Answers i s (fun t =>
      (cp t).st = .align ∧ (cp t).idle = false ∧ Raised s t 0x5004 ∧ (.portdown p, s.clock.step) ∈ (t.hubRed h).errs ∧
      (t.port p).txseq = (s.port p).txseq ∧ (t.port p).unacked = (s.port p).unacked ∧ ∀ q, q ≠ p.val → t.port q = s.port q)
    let failed := fun (t : State) => (cp t).st = .backoff ∧ (cp t).wait = c.wait ∧ (c.downSaid = false → Raised s t 0x5002) ∧
      (c.downSaid = true → t = s.setPort p (t.port p)) ∧ ∀ q, q ≠ p.val → t.port q = s.port q
    (∀ (lane : Fin 16) w cv, lane.val / 4 = p.val →
      let k := lane.val % 4
      let l := c.lane k
      let pre := l.pre
      let post := l.post
      let req := w.toNat / 2 ^ 40 % 16
      (¬on ∨ c.st ∉ [.detect, .link, .eq, .wake] → exec (.trainingWord h lane w cv) s = .next s) ∧
      (on → c.st = .detect → c.downSaid = true → c.roleSaid = true →
        (s.portRole p = 2 ∧ w.toNat / 2 ^ 45 % 4 ≠ 1 ∨ s.portRole p ≠ 2 ∧ w.toNat / 2 ^ 45 % 4 = 1) →
        Answers (.trainingWord h lane w cv) s (fun t => (cp t).st = .backoff)) ∧
      (on → c.st = .link ∨ c.st = .eq ∨ c.st = .wake → (∃ j, j < 4 ∧ j ≠ k ∧ (c.lane j).word = none) →
        ∃ lanes w', exec (.trainingWord h lane w cv) s = .next { set { c with lanes := lanes } with
            pcie := { s.pcie with out := s.pcie.out ++ [.training h lane w'] } } ∧
          let c' := { c with lanes := lanes }
          let l' := c'.lane k
          let x := w'.toNat
          let answers := fun (done : Prop) [Decidable done] => l'.rsp = if done then 1 else 2
          (∀ j, j ≠ k → c'.lane j = c.lane j) ∧
          l' = { l with pre := l'.pre, post := l'.post, rsp := l'.rsp, word := some w, conv := l.conv || cv } ∧
          x / 2 ^ 52 = (if c.st = .link then 2 else if c.st = .eq then 3 else 5) ∧ x / 2 ^ 49 % 8 = s.rateMask p ∧
          x / 2 ^ 47 % 4 = k ∧ x / 2 ^ 45 % 4 = s.portRole p ∧ x / 2 ^ 44 % 2 = (if h = s.red.active then 1 else 0) ∧
          x / 2 ^ 21 % 2 ^ 16 = s.node.nodeId.toNat ∧ x / 2 ^ 38 % 4 = (if c.st = .eq then l'.rsp.toNat else 0) ∧
          (c.st ≠ .eq → l'.pre = pre ∧ l'.post = post ∧ l'.rsp = l.rsp ∧ x / 2 ^ 40 % 16 = 0) ∧
          (c.st = .eq →
            (req = 1 → l'.pre = (if pre < 15 ∧ pre + post < 32 then pre + 1 else pre) ∧ l'.post = post ∧
              answers (pre < 15 ∧ pre + post < 32)) ∧
            (req = 2 → l'.pre = pre - 1 ∧ l'.post = post ∧ answers (pre ≠ 0)) ∧
            (req = 3 → l'.post = (if post < 31 ∧ pre + post < 32 then post + 1 else post) ∧ l'.pre = pre ∧
              answers (post < 31 ∧ pre + post < 32)) ∧
            (req = 4 → l'.post = post - 1 ∧ l'.pre = pre ∧ answers (post ≠ 0)) ∧
            (req = 5 → l'.pre = (s.lanePreset h lane).pre ∧ l'.post = (s.lanePreset h lane).post ∧ l'.rsp = 1) ∧
            (req = 0 ∨ 6 ≤ req → l'.pre = pre ∧ l'.post = post ∧ l'.rsp = 0))) ∧
      (on → c.st = .eq → w.getLsbD 37 = true → (l.conv = true ∨ cv = true) →
        (∀ j, j < 4 → j ≠ k → (c.lane j).conv = true ∧ ∃ v, (c.lane j).word = some v ∧ v.getLsbD 37 = true) →
        Answers (.trainingWord h lane w cv) s (fun t => (cp t).st = .align ∧ (cp t).fresh = true ∧ ∀ q, q ≠ p.val → t.port q = s.port q))) ∧
    (¬on → exec (.trainingTimeout h p) s = .next s) ∧
    (on → c.st = .detect ∨ c.st = .link ∨ c.st = .wake → Answers (.trainingTimeout h p) s failed) ∧
    (on → c.st = .eq → Answers (.trainingTimeout h p) s (fun t => t = s.setPort p (t.port p) ∧ (cp t).st = .align)) ∧
    (on → c.st = .align →
      ((∃ r, r < c.rate ∧ (s.rateMask p).testBit r = true) → Answers (.trainingTimeout h p) s (fun t =>
        t = s.setPort p (t.port p) ∧ (cp t).st = .link ∧ (cp t).cap = c.rate - 1)) ∧
      ((∀ r, r < c.rate → (s.rateMask p).testBit r = false) → Answers (.trainingTimeout h p) s failed)) ∧
    (on → c.st ≠ .backoff → exec (.backoffExpiry h p) s = .next s) ∧
    (on → c.st = .backoff → Answers (.backoffExpiry h p) s (fun t => (cp t).st = .detect ∧
      (cp t).wait = (if c.wait < 512 then 2 * c.wait else 1000) ∧ (∀ k, k < 4 → (cp t).lane k = s.lanePreset h (4 * p + k)) ∧
      ∀ q, q ≠ p.val → t.port q = s.port q)) ∧
    (∀ lanes seqs q skew, on → seqs = [q, q, q, q] → lanes.Perm [0, 1, 2, 3] →
      (c.st = .align → skew ≤ 180000 → Answers (.fodafortMarker h p lanes seqs skew) s (fun t =>
        (∃ up evs, t.hay.fifo = s.hay.fifo ++ up :: evs ∧ up.code = 0x5001 ∧ evs.length = 4 ∧ ∀ e, e ∈ evs → e.code = 0x900F) ∧
        (cp t).st = .up ∧ (cp t).wait = 1 ∧ (cp t).marker = q ∧
        (c.fresh = true → h = s.red.active → (t.port p).txseq = 1 ∧ (t.port p).rxseq = 0 ∧ (t.port p).unacked = []) ∧
        (c.fresh = false → (t.port p).txseq = (s.port p).txseq ∧ (t.port p).rxseq = (s.port p).rxseq ∧
          (t.port p).unacked = (s.port p).unacked))) ∧
      (c.st = .align → 180000 < skew → exec (.fodafortMarker h p lanes seqs skew) s = .next s) ∧
      (c.st = .up → 180000 < skew → lost (.fodafortMarker h p lanes seqs skew)) ∧
      (c.st = .up → skew ≤ 180000 → c.markerKnown = true →
        (q = c.marker + 1 → exec (.fodafortMarker h p lanes seqs skew) s =
          .next (set { c with marker := q, badSeq := 0, quiet := false })) ∧
        (q ≠ c.marker + 1 → c.badSeq = 0 → exec (.fodafortMarker h p lanes seqs skew) s =
          .next (set { c with marker := q, badSeq := 1, quiet := false })) ∧
        (q ≠ c.marker + 1 → c.badSeq = 1 → lost (.fodafortMarker h p lanes seqs skew)))) ∧
    (s.live = true → s.node.pstate = .active → c.idle = true →
      exec (.wake h p) s = .next (set { c with idle := false, txMarker := c.txMarker + 1 })) ∧
    (c.idle = false → exec (.wake h p) s = .next s) ∧
    (on → c.st = .up → c.quiet = true → lost (.wakeTimeout h p)) ∧
    (c.quiet = false → exec (.wakeTimeout h p) s = .next s)

/-- Frames of a port: the frame that R314 lays out of a type and payload is good; one received outside UP is ignored, a bad one
counted and discarded; a PRIM frame, or a DATA frame of a port that is no MERGE-IN port, that is later than the last is
accepted, acknowledged and discarded; a DATA frame of a MERGE-IN port begins or continues its part. An ACK drops the frames that
it covers, PAUSE and RESUME hold and free the sender, PAUSE also for 1 ms only; QUIET is answered with QUIET and idle. Merge-in
pause repeats; unacknowledged frames of 4 ms are discarded and the port aligns again; an open merge set that times out is
closed. -/
def Obligations.FramesAreTaken : Prop :=
  ∀ (s : State) (h : Hub) (p : Fin 4),
    let x := s.port p
    let c := x.copy h
    let here := s.lanesOn = true ∧ c.st = .up
    let onPort := fun (t : State) (y : Port) => t = { s.setPort p y with counters := t.counters }
    (∀ f, ¬here → exec (.dataFrame h p f) s = .next s ∧ exec (.primFrame h p f) s = .next s) ∧
    (∀ (type : Nat) act q (bs : List Byte), type < 16 → bs.length % 8 = 0 → bs.length ≤ 9200 →
      frameGood (portFrame type act q bs) type = true ∧ frameSeq (portFrame type act q bs) = q) ∧
    (∀ f, here → ∀ i, i = .dataFrame h p f ∧ frameGood f 1 = false ∨ i = .primFrame h p f ∧ frameGood f 2 = false →
      Answers i s (fun t => t = { s with counters := t.counters } ∧ Counted s t (figFoda 5 10 p) 1)) ∧
    (∀ f (n : Nat), here → (frameSeq f - x.rxseq).toNat = n → 1 ≤ n → n < 2 ^ 15 → (n = 1 ∨ x.rx = none) →
      (∀ i, i = .primFrame h p f ∧ frameGood f 2 = true ∨ i = .dataFrame h p f ∧ frameGood f 1 = true ∧ (s.portIsMerge p = false ∨ s.node.mode ≠ .hub) → Answers i s (fun t =>
        onPort t { x with rxseq := frameSeq f, ackDue := true } ∧ Counted s t (figFoda 6 1 p) (n - 1) ∧ Counted s t (figFoda 5 11 p) 1)) ∧
      (frameGood f 1 = true → s.portIsMerge p = true → s.node.mode = .hub → (leAt f.payload 0 8).testBit 54 = false →
        let trig := BitVec.ofNat 32 (leAt f.payload 0 4)
        let part := leAt f.payload 7 1
        ((leAt f.payload 0 8).testBit 55 = true → x.rx = none → Answers (.dataFrame h p f) s (fun t =>
          t.port p = { x with rxseq := frameSeq f, ackDue := true, rx := some ⟨trig, part, f.payload.drop 8, false⟩ })) ∧
        ((leAt f.payload 0 8).testBit 55 = false → ∀ b, x.rx = some ⟨trig, part, b, false⟩ → n = 1 →
          Answers (.dataFrame h p f) s (fun t =>
            t.port p = { x with rxseq := frameSeq f, ackDue := true, rx := some ⟨trig, part, b ++ f.payload.drop 8, false⟩ })))) ∧
    (∀ i, i = .fodafortPause h p ∨ i = .fodafortResume h p ∨ i = .quiet h p ∨ (∃ q, i = .fodafortAck h p q) → ¬here →
      exec i s = .next s) ∧
    (here → Answers (.fodafortPause h p) s (fun t => onPort t { x with paused := true }) ∧
      Answers (.fodafortResume h p) s (fun t => onPort t { x with paused := false }) ∧
      (∀ q, laterMod 16 q.toNat (x.txseq - 1).toNat = true → Answers (.fodafortAck h p q) s (fun t => onPort t x)) ∧
      (∀ q, laterMod 16 q.toNat (x.txseq - 1).toNat = false → Answers (.fodafortAck h p q) s (fun t =>
        onPort t { x with unacked := x.unacked.filter (fun u => laterMod 16 u.2.1.toNat q.toNat) })) ∧
      Answers (.quiet h p) s (fun t => t.port p = x.setCopy h { c with quiet := true, idle := true } ∧
        t.pcie.outQ = s.pcie.outQ ++ if c.idle = true then [] else [(s.clock.step, .ctrl (some h) p 4 0)])) ∧
    (s.lanesOn = true → exec (.pauseExpiry p) s = .next (s.setPort p { x with paused := false })) ∧
    (s.lanesOn = true → x.pauseOut = true → exec (.mergePauseRepeat p) s =
      .next { s with pcie := { s.pcie with outQ := s.pcie.outQ ++ [(s.clock.step, .ctrl none p 2 0)] } }) ∧
    (x.pauseOut = false → exec (.mergePauseRepeat p) s = .next s) ∧
    (s.lanesOn = true → x.unacked ≠ [] → Answers (.ffnoack p) s (fun t =>
      Raised s t 0x5005 ∧ Counted s t (figFoda 6 2 p) 1 ∧ (t.port p).unacked = [] ∧ (t.port p).txseq = x.txseq ∧
      ∀ k, ((t.port p).copy k).st = if (x.copy k).st = .up then .align else (x.copy k).st)) ∧
    (x.unacked = [] → exec (.ffnoack p) s = .next s) ∧
    ∀ trigno epoch,
      let mine := fun (y : MergeSet) => decide (y.trigno = trigno ∧ y.epoch = epoch)
      (s.foda.sets.all (fun y => !mine y) = true → exec (.mergeTimeout trigno epoch) s = .next s) ∧
      (s.live = true → s.foda.sets.any mine = true → Answers (.mergeTimeout trigno epoch) s (fun t =>
        t.foda.sets = s.foda.sets.filter (fun y => !mine y) ∧ (trigno, epoch) ∈ t.foda.closed ∧
        Counted s t (figFoda 8 1) 1))

/-- Time messages: at each SYNC interval every open TIME port on which the node is master sends a SYNC with its next number and
the egress time of its stamp; at each ANNOUNCE interval the candidates age and every open TIME port sends the winning tuple. The
payload holds its fields where R338 has them. A TIME frame outside UP is ignored; a bad one, one on another port, of another
version or of another message is counted and discarded. The slave answers a SYNC with a DREQ and opens an exchange, the master a
DREQ with a DRESP, a DRESP of the same number completes the exchange, which is one of the last 16 and gives the servo its
offset, one of another number or a timeout abandons it; an ANNOUNCE is the port's candidate. -/
def Obligations.TimeIsExchanged : Prop :=
  ∀ s : State,
    let ids := [0, 1, 2, 3]
    let sent := fun (l : List Out) => s.pcie.outQ ++ l.map (fun o => (s.clock.step, o))
    let rate := fun (h : Hub) (p : Nat) => ((s.port p).copy h).rate
    let etrim := fun (p : Nat) => (s.time.w1.extractLsb' (16 * p) 16).toInt
    let itrim := fun (p : Nat) => (s.time.w2.extractLsb' (16 * p) 16).toInt
    let mac := fun (x : Stamp) => openDiv 0 (((s.time.sec * (1000000000 * 2 ^ 32) + s.time.v + x.period.toNat * s.time.incr) * 256 +
      s.time.incr * x.frac.toNat : Nat) : Int) (2 ^ 24)
    let egress := fun (p : Nat) (x : Stamp) =>
      let r := rate s.red.active p
      mac x + openDiv 0 (((if r = 0 then 58300 else if r = 1 then 30450 else 32800) + etrim p) * 65536) 1000
    let ingress := fun (h : Hub) (p : Nat) (x : Stamp) (j : Nat) (skew : Int) =>
      let r := rate h p
      mac x - openDiv 0 ((((if r = 0 then 71050 else if r = 1 then 37200 else 41650) + skew + itrim p) * 75 +
        ((76 - j) * 88000 * 2 ^ (2 - r) : Nat)) * 65536) 75000
    let telling := fun (p msg : Nat) (seqid : BitVec 16) (ts : Int) (tuple : Nat) =>
      Out.time p (timePayload msg seqid s.node.nodeId ts tuple)
    (∀ (msg : Nat) seqid node (ts : Int) (tuple : Nat), msg < 16 → 0 ≤ ts → ts < 2 ^ 48 * 1000000000 * 65536 → tuple < 2 ^ 32 →
      let b := timePayload msg seqid node ts tuple
      b.length = 32 ∧ tfMsg b = msg ∧ tfVer b = 1 ∧ tfSeq b = seqid ∧ leAt b 0 8 / 2 ^ 24 % 2 ^ 16 = node.toNat ∧ tfTime b = ts ∧
      tfPrio b = tuple / 2 ^ 24 ∧ tfGmid b = tuple / 2 ^ 8 % 2 ^ 16 ∧ tfSteps b = tuple % 2 ^ 8) ∧
    (∀ macs, s.lanesOn = true →
      let on := fun p => s.timeOpen p && s.masterOn p
      Answers (.syncInterval macs) s (fun t =>
        t.pcie.outQ = sent ((ids.filter on).map (fun p => telling p 1 (s.port p).syncId (egress p (macs.getD p ⟨0, 0⟩)) 0)) ∧
        ∀ p, p < 4 → t.port p = if on p then { s.port p with syncId := (s.port p).syncId + 1 } else s.port p)) ∧
    (s.lanesOn = true → Answers .announceInterval s (fun t =>
      (∀ p, p < 4 → t.port p = { s.port p with cand := (s.port p).cand.map (fun c => { c with age := c.age + 1 }) }) ∧
      (s.time.win = none → t.pcie = s.pcie) ∧
      ∀ prio gm steps, s.time.win = some (prio, gm, steps) → t.pcie.outQ =
        sent ((ids.filter s.timeOpen).map (fun p => telling p 4 0 0 (prio * 2 ^ 24 + gm * 2 ^ 8 + steps))))) ∧
    (s.lanesOn = false → (∀ macs, exec (.syncInterval macs) s = .next s) ∧ exec .announceInterval s = .next s) ∧
    ∀ (h : Hub) (p : Fin 4) (f : PortFrame),
      let x := s.port p
      let b := f.payload
      let good := frameGood f 3 = true ∧ frameNdata f = 4
      let here := s.lanesOn = true ∧ (x.copy h).st = .up
      let counts := fun (i : Instr) (fig : Fig) => Answers i s (fun t => t = { s with counters := t.counters } ∧ Counted s t fig 1)
      let stands := fun (i : Instr) => counts i (figFoda 5 8 p)
      let ended := fun (i : Instr) => Answers i s (fun t =>
        t = { s.setPort p { x with exch := none } with counters := t.counters } ∧ Counted s t (figTime 4 2 p) 1)
      (∀ i (msg : Nat), (∃ m2 j k m3, i = .sync h p f m2 j k m3) ∧ msg = 1 ∨ (∃ m4 j k, i = .dreq h p f m4 j k) ∧ msg = 2 ∨
          i = .dresp h p f ∧ msg = 3 ∨ i = .announce h p f ∧ msg = 4 →
        (¬here → exec i s = .next s) ∧ (here → ¬good → counts i (figFoda 5 10 p)) ∧
        (here → good → s.portTime p = false → counts i (figTime 5 0 p)) ∧
        (here → good → s.portTime p = true → tfVer b ≠ 1 → counts i (figTime 5 1 p)) ∧
        (here → good → s.portTime p = true → tfVer b = 1 → tfMsg b ≠ msg → counts i (figTime 5 2 p))) ∧
      (here → good → s.portTime p = true → tfVer b = 1 →
        (∀ m2 j k m3, tfMsg b = 1 → s.time.slave = some p.val → s.timeOpen p = true → Answers (.sync h p f m2 j k m3) s (fun t =>
          t.port p = { x with exch := some ⟨tfSeq b, tfTime b, ingress h p m2 j k, egress p m3, 0⟩ } ∧
          t.pcie.outQ = sent [telling p 2 (tfSeq b) (egress p m3) 0] ∧
          (x.exch ≠ none → Counted s t (figTime 4 2 p) 1))) ∧
        (∀ m2 j k m3, tfMsg b = 1 → s.time.slave ≠ some p.val → stands (.sync h p f m2 j k m3)) ∧
        (∀ m4 j k, tfMsg b = 2 → s.masterOn p = true → s.timeOpen p = true → Answers (.dreq h p f m4 j k) s (fun t =>
          t = { s with counters := t.counters, pcie := { s.pcie with outQ := sent [telling p 3 (tfSeq b) (ingress h p m4 j k) 0] } })) ∧
        (∀ m4 j k, tfMsg b = 2 → s.masterOn p = false → stands (.dreq h p f m4 j k)) ∧
        (tfMsg b = 3 → x.exch = none → stands (.dresp h p f)) ∧
        (∀ e, tfMsg b = 3 → x.exch = some e → e.seqid ≠ tfSeq b → ended (.dresp h p f)) ∧
        (∀ e, tfMsg b = 3 → x.exch = some e → e.seqid = tfSeq b → Answers (.dresp h p f) s (fun t =>
          t.port p = { x with exch := none, last := (x.last ++ [{ e with t4 := tfTime b }]).drop (x.last.length - 15) } ∧
          Counted s t (figTime 4 1 p) 1 ∧
          t.time.offsets = s.time.offsets ++
            if s.servoOn = true ∧ s.time.slave = some p.val then [openDiv 1 ((e.t2 - e.t1) - (tfTime b - e.t3)) 2] else [])) ∧
        (tfMsg b = 4 → Answers (.announce h p f) s (fun t => t = { s with foda := t.foda, counters := t.counters } ∧
          t.port p = { x with cand := some ⟨tfPrio b, tfGmid b, tfSteps b, 0⟩ } ∧ ∀ q, q ≠ p.val → t.port q = s.port q))) ∧
      (s.live = true → x.exch ≠ none → ended (.exchangeTimeout p)) ∧
      (x.exch = none → exec (.exchangeTimeout p) s = .next s)

/-- A TOUT pulse begins at its target, in the coarse tick that holds it: the output turns active for WIDTH, the ball of a PIN
output is driven, or the pulse is omitted and counted while no hub drives the balls; EVT raises the internal event on every die
and the trigger of the TOUT; a tick before the target does nothing. The pulse ends at its trailing edge. -/
def Obligations.TimedPulses : Prop :=
  ∀ (s : State) (k : Fin 4) (tick : BitVec 12),
    let g := s.gen k
    let ref := s.time.v + tick.toNat / 8 * s.time.incr
    let reached := g.target g.next * 8 < (s.time.sec * (1000000000 * 2 ^ 32) + ref) * 8 + (tick.toNat % 8 + 1) * s.time.incr
    let now := s.fullSlice * 4096 + tick.toNat
    let on := s.live = true ∧ s.node.pstate ≠ .fallow ∧ s.node.pstate ≠ .frost
    let onGen := fun (t : State) => t = { s with
      time := { s.time with gens := t.time.gens }, pcie := { s.pcie with out := t.pcie.out } } ∧ ∀ j, j ≠ k.val → t.gen j = s.gen j
    (¬on ∨ g.hasNext = false ∨ ¬reached → exec (.toutPulse k tick) s = .next s) ∧
    (on → g.hasNext = true → reached → s.red.drive ≠ none → g.evt = false → Answers (.toutPulse k tick) s (fun t =>
      onGen t ∧ t.gen k = { g with next := g.next + 1, made := g.made + 1, trail := some (now + g.width), level := true } ∧
      t.pcie.out = s.pcie.out ++ if g.pin = true ∧ g.level = false then [.tout k !g.pol] else [])) ∧
    (on → g.hasNext = true → reached → s.red.drive ≠ none → g.evt = true → Answers (.toutPulse k tick) s (fun t =>
      (t.gen k).next = g.next + 1 ∧ (t.gen k).level = true ∧ t.mon.arriving = s.mon.arriving ++ [2 + k.val] ∧
      ∀ d, d < 8 → (now + 128) ∈ (t.fe d).injDue)) ∧
    (on → g.hasNext = true → reached → s.red.drive = none → g.evt = false → Answers (.toutPulse k tick) s (fun t =>
      t.gen k = { g with next := g.next + 1 } ∧ t.pcie.out = s.pcie.out ∧ Raised s t 0x2007 ∧ Counted s t (figTime 6 4 k) 1)) ∧
    (g.trail = none → exec (.toutPulseEnd k tick) s = .next s) ∧
    (∀ e, g.trail = some e → ¬on ∨ now < e → exec (.toutPulseEnd k tick) s = .next s) ∧
    (∀ e, g.trail = some e → on → e ≤ now → Answers (.toutPulseEnd k tick) s (fun t =>
      onGen t ∧ t.gen k = { g with level := false, trail := none } ∧ t.pcie.out = s.pcie.out ++
        if g.pin = true ∧ g.level = true ∧ s.red.drive ≠ none then [.tout k g.pol] else []))

/-- The hubs watch each other: a silent partner, a skewed step, a lost clock and a local error are recorded once with their
events; a partner's digest is kept beside the own one of its step. With the stile lost the standby is faulty, or takes over from
a silent active. Two steps after a switch-over the new active takes the drive and replays; a drive still held after four steps
leads to SAFE. A rejoin brings a faulty hub up to its wait for step J or fails in a phase. A FIFO pointer mismatch is counted,
resets the FIFO until its reset ends, and is a local error or, on the stile, its loss. Nothing happens in TRIPPED. -/
def Obligations.HubsWatchEachOther : Prop :=
  ∀ (s : State) (h : Hub),
    let n := s.clock.step
    let silent := fun (t : State) (k : Hub) => if k = .a then t.red.silentA else t.red.silentB
    let errs := fun (t : State) (k : Hub) => (t.hubRed k).errs
    let reports := fun (i : Instr) (e : LocalErr) (num code : Nat) => s.live = true → Answers i s (fun t =>
      errs t h = errs s h ++ [(e, n)] ∧ t.hubRed h.other = s.hubRed h.other ∧ Raised s t code ∧
      Counted s t ⟨0x09, 3, 2, h.idx + 1, num⟩ 1)
    let act := s.red.active
    (s.live = false → ∀ i, i = .hubSilent h ∨ i = .stepskew h ∨ i = .clkLoss h ∨ i = .replayRelease ∨ i = .driveHeld ∨
      (∃ e, i = .localError h e) ∨ (∃ d c, i = .digest d c) ∨ (∃ b, i = .stileLost b) ∨ (∃ p, i = .rejoin h p) ∨
      (∃ f k, i = .fifoPointerMismatch h f k) ∨ (∃ f, i = .fifoResetEnd h f) → exec i s = .next s) ∧
    (s.live = true → silent s h = false → Answers (.hubSilent h) s (fun t =>
      Raised s t 0x6008 ∧ silent t h = true ∧ silent t h.other = silent s h.other)) ∧
    (silent s h = true → exec (.hubSilent h) s = .next s) ∧
    reports (.stepskew h) .stepskew 2 0x600B ∧ reports (.clkLoss h) .clkloss 5 0x600C ∧
    (∀ e, (∃ k, (e, k) ∈ errs s h) → exec (.localError h e) s = .next s) ∧
    (∀ e, s.live = true → (∀ k, (e, k) ∉ errs s h) → e ≠ .memlate → Answers (.localError h e) s (fun t =>
      t = { s with red := t.red, counters := t.counters } ∧ errs t h = errs s h ++ [(e, n)] ∧ t.hubRed h.other = s.hubRed h.other)) ∧
    ((∀ k, (.memlate, k) ∉ errs s h) → reports (.localError h .memlate) .memlate 1 0x600A) ∧
    (∀ d c own m rest, s.live = true → s.red.lockstep = true → s.red.digOwn = (m, own) :: rest → m % 2 ^ 16 = d.toNat →
      (∀ q, q ∈ s.red.digPart → q.1 ≠ m) →
      exec (.digest d c) s = .next { s with red := { s.red with digPart := s.red.digPart ++ [(m, c)] } }) ∧
    (∀ d c, s.red.lockstep = false → exec (.digest d c) s = .next s) ∧
    (∀ k, s.red.switchAt = some k → s.live = true → (n < k + 2 → exec .replayRelease s = .next s) ∧
      (k + 2 ≤ n →
        let red := { s.red with switchAt := none, drive := if s.red.held then none else some act }
        let out := s.pcie.out ++ s.replayed
        Answers .replayRelease s (fun t => t.red = red ∧ t.pcie.out = out ∧ t.core = s.core ∧ t.hay = s.hay ∧ t.node = s.node ∧
          (s.red.held = true → (∀ o, o ∈ s.pcie.replay → ∀ g v, o.2 = .msix g v → (s.ep act).mayInterrupt v = true) →
            t = { s with red := red, pcie := { s.pcie with out := out } })))) ∧
    (s.red.switchAt = none → exec .replayRelease s = .next s) ∧
    (s.live = true → s.red.drive ≠ some act → s.red.held = false → s.red.lastSwitch + 4 ≤ n → 3 ≤ s.node.mode.num →
      Answers .driveHeld s (fun t => t.red.held = true ∧ t.node.mode = .safe ∧ ∃ e, e ∈ t.hay.fifo ∧ e.code = 0x6006)) ∧
    (s.red.drive = some act ∨ s.red.held = true ∨ n < s.red.lastSwitch + 4 → exec .driveHeld s = .next s) ∧
    (∀ b, s.red.stileUp = false ∨ s.node.simplex = true → exec (.stileLost b) s = .next s) ∧
    (∀ b, s.live = true → s.red.stileUp = true → s.node.simplex = false → Answers (.stileLost b) s (fun t =>
      t.red.stileUp = false ∧ Counted s t (figRedund 6 1) 1 ∧ (b = false → Raised s t 0x6007) ∧
      (s.red.lockstep = false → t.red = { s.red with stileUp := false }) ∧
      (s.red.lockstep = true → b = true → silent s act = true → (s.hubRed act.other).role = .eligible →
        t.red.active = act.other ∧ t.red.lockstep = false ∧ t.red.drive = none ∧ t.red.switchAt = some n ∧ (t.hubRed act).role = .faulty ∧
        (t.hubRed act.other).role = .active ∧ Raised s t 0x6001) ∧
      (s.red.lockstep = true → b = false ∨ silent s act = false →
        t.red.active = act ∧ t.red.lockstep = false ∧ t.red.drive = s.red.drive ∧ (t.hubRed act.other).role = .faulty))) ∧
    (∀ f, h = act ∨ s.node.simplex = true → exec (.rejoin h f) s = .next s) ∧
    (s.live = true → s.node.simplex = false → h ≠ act → 3 ≤ s.node.mode.num → (s.hubRed h).role = .faulty →
      (s.hubRed h).fails.length < 3 →
      Answers (.rejoin h none) s (fun t => (t.hubRed h).role = .joining ∧ (t.hubRed h).joinPhase = 5 ∧ t.red.stileUp = true ∧
        (t.hubRed h).attempts = (s.hubRed h).attempts + 1 ∧ t.hubRed act = s.hubRed act) ∧
      ∀ p, Answers (.rejoin h (some p)) s (fun t => (t.hubRed h).role = .faulty ∧ (t.hubRed h).failPhase = p ∧
        s.clock.evals ∈ (t.hubRed h).fails ∧ (t.hubRed h).attempts = (s.hubRed h).attempts + 1 ∧
        ∃ e, e ∈ t.hay.fifo ∧ e.code = 0x6004)) ∧
    (∀ f k, s.live = true → (h, f) ∉ s.red.fifoReset → Answers (.fifoPointerMismatch h f k) s (fun t =>
      (h, f) ∈ t.red.fifoReset ∧ Counted s t (figRedund 7 0 (h.idx + 1) (fifoCode f)) 1 ∧
      (f = .memWrite → errs t h = errs s h ++ [(.memwrite, n)] ∧ t.hay = s.hay) ∧
      (f = .stileRx → s.red.stileUp = true → s.node.simplex = false → t.red.stileUp = false ∧ Raised s t 0x6007) ∧
      (f ≠ .memWrite → f ≠ .stileRx → (.fifo, n) ∈ errs t h) ∧
      (f = .mailbox → h = act → s.red.lockstep = false → t.core.mailbox = [] ∧ Raised s t 0x1004) ∧
      (f = .tcmd → s.red.lockstep = true → t.core = s.core ∧ t.red.gates = s.red.gates ∧ Raised s t 0x1004))) ∧
    (∀ f k, (h, f) ∈ s.red.fifoReset → exec (.fifoPointerMismatch h f k) s = .next s) ∧
    ∀ f, s.live = true → exec (.fifoResetEnd h f) s =
      .next { s with red := { s.red with fifoReset := s.red.fifoReset.filter (fun x => x ≠ (h, f)) } }

/-! ### Monitoring, loops, Hayward and tallies -/

/-- The monitoring front end: a pass starts with its waiting settings at the first enabled entry; the phases of an entry follow
each other, and the end of its conversion gives the mean of the corrected codes, marked when one saturates, as a record and as
the entry's result, and the next entry begins; an arriving trigger begins its injected entries, the regular one abandoned, or
waits, or is counted when it waits already; a pause of BLANK ends with its trigger; a tripped source ends the entry that uses it
with OPEN. -/
def Obligations.MonitorConverts : Prop :=
  ∀ s : State,
    let m := s.mon
    let on := s.live = true ∧ s.node.pstate ≠ .fallow ∧ s.node.pstate ≠ .frost
    let mon := fun (m' : Monitor) => ({ s with mon := m' } : State)
    let word := fun (r : MonRun) => if r.inj then m.injEntry r.entry else m.regEntry r.entry
    let given := fun (t : State) (r : MonRun) (tick : BitVec 12) (stat : Nat) (value : Int) =>
      (r.inj = false → Tbl.get none t.mon.results r.entry = some ⟨stat, value, s.aonCycles⟩) ∧
      ((word r).testBit 6 = true → t.core = s.core) ∧
      ((word r).testBit 6 = false → ∃ z : Rec128, t.core = { s.core with service := s.core.service ++ [z] } ∧
        z.toNat / 2 ^ 124 = 7 ∧ z.getLsbD 123 = r.inj ∧ z.toNat / 2 ^ 117 % 2 ^ 6 = r.entry % 64 ∧
        z.toNat / 2 ^ 113 % 2 ^ 4 = (if r.inj then m.trig.getD 0 % 16 else 0) ∧ z.toNat / 2 ^ 110 % 2 ^ 3 = stat ∧
        (z.extractLsb' 64 32).toInt = value ∧ z.toNat / 2 ^ 32 % 2 ^ 32 = s.clock.epoch.toNat ∧
        z.toNat / 2 ^ 8 % 2 ^ 24 = s.clock.slice.toNat * 4096 + tick.toNat / 8 * 8)
    (¬on ∨ m.pass = true ∨ m.pause = true ∨ m.trig ≠ none → exec .regularPass s = .next s) ∧
    (on → m.pass = false → m.pause = false → m.trig = none → m.regWait = none →
      (m.nreg = 0 → exec .regularPass s = .next s) ∧
      (∀ e, e < m.nreg → (m.regEntry e).testBit 63 = true → (∀ i, i < e → (m.regEntry i).testBit 63 = false) →
        exec .regularPass s = .next (mon { m with
          pass := true, next := e + 1, abandoned := none, cur := some ⟨false, e, .brk⟩ }))) ∧
    (∀ h d es, on → m.pass = false → m.pause = false → m.trig = none → m.regWait = some (h, d, es) →
      Answers .regularPass s (fun t => t.mon.header = h ∧ t.mon.diode = d ∧ t.mon.regular = es ∧ t.mon.regWait = none)) ∧
    (∀ xs off o tick, (m.cur = none ∨ ¬on → exec (.monitorPhaseEnd xs off o tick) s = .next s) ∧
      ∀ r, m.cur = some r → on →
        (r.phase = .brk → exec (.monitorPhaseEnd xs off o tick) s = .next (mon { m with cur := some { r with phase := .discharge } })) ∧
        (r.phase = .discharge → exec (.monitorPhaseEnd xs off o tick) s = .next (mon { m with cur := some { r with phase := .settle } })) ∧
        (r.phase = .settle → exec (.monitorPhaseEnd xs off o tick) s = .next (mon { m with cur := some { r with phase := .convert } })) ∧
        (r.phase = .convert → word r / 2 ^ 61 % 4 = 0 → (word r).testBit 48 = false → (word r).testBit 26 = false →
          let codes := xs.map (fun c => (m.slice c.1).correct16 c.2)
          let stat := if codes.any (fun c => c = -32768 ∨ c = 32767) then 2 else 0
          Answers (.monitorPhaseEnd xs off o tick) s (fun t =>
            given t r tick stat (if codes = [] then 0 else 256 * codes.sum / codes.length) ∧
            (∀ e l, r.inj = true → m.todo = e :: l → t.mon.cur = some ⟨true, e, .brk⟩ ∧ t.mon.todo = l) ∧
            (r.inj = false → m.pause = true → t.mon.cur = none) ∧
            ∀ e, r.inj = false → m.pause = false → m.abandoned = none → m.pass = true → m.nextReg m.next = some e →
              t.mon.cur = some ⟨false, e, .brk⟩ ∧ t.mon.next = e + 1))) ∧
    (∀ g : BitVec 4,
      let k := g.toNat
      let arrived := { m with arriving := m.arriving.erase k }
      (k ∉ m.arriving → exec (.injectedTrigger g) s = .next s) ∧
      (k ∈ m.arriving → ¬on → exec (.injectedTrigger g) s = .next (mon arrived)) ∧
      (k ∈ m.arriving → on → m.trig ≠ none → k ∉ m.pending →
        exec (.injectedTrigger g) s = .next (mon { arrived with pending := m.pending ++ [k] })) ∧
      (k ∈ m.arriving → on → m.trig ≠ none → k ∈ m.pending → Answers (.injectedTrigger g) s (fun t =>
        t.mon = arrived ∧ Counted s t (figEnviron 4 3 k) 1)) ∧
      (∀ e l, k ∈ m.arriving → on → m.trig = none → m.injWait = none →
        (List.range 8).filter (fun i => (m.injEntry i).testBit 63 && (m.injEntry i / 2 ^ 7 % 16 == k)) = e :: l →
        Answers (.injectedTrigger g) s (fun t => t.mon.cur = some ⟨true, e, .brk⟩ ∧ t.mon.trig = some k ∧ t.mon.todo = l ∧
          Counted s t (figEnviron 4 2 k) 1 ∧ ∀ r, m.cur = some r → r.inj = false → t.mon.abandoned = some r.entry))) ∧
    (m.pause = false ∨ m.blank = true → exec .blankPauseEnd s = .next s) ∧
    (m.pause = true → m.blank = false → Answers .blankPauseEnd s (fun t =>
      t.mon.pause = false ∧ t.mon.arriving = m.arriving ++ [6] ∧
      (m.cur ≠ none → t = mon { m with pause := false, arriving := m.arriving ++ [6] }))) ∧
    ∀ tick, (¬on → ∀ c, exec (.complianceTrip c tick) s = .next s) ∧
      (m.cur = none → exec (.complianceTrip .source tick) s = .next s) ∧
      (on → m.excen = true → m.excSaid = false → m.cur = none → Answers (.complianceTrip .excOpen tick) s (fun t =>
        Raised s t 0x7003 ∧ t.mon.excOpen = true)) ∧
      ∀ r, m.cur = some r → on →
        ((word r).testBit 45 = false → (word r).testBit 39 = false → exec (.complianceTrip .source tick) s = .next s) ∧
        ((word r).testBit 45 = true ∨ (word r).testBit 39 = true → r.phase ≠ .brk →
          Answers (.complianceTrip .source tick) s (fun t => given t r tick 1 0 ∧
            Counted s t (figEnviron 4 4 (if r.inj then 64 + r.entry else r.entry)) 1))

/-- The loops: a string's comparators switch its gate at the centre less and plus H, 400 mV switches it off at once, and a level
holds until its hold ends; a period without counting cycles only ends; a valid sample of a starting loop sets ramp and centre,
of a running one corrects TRIM within TLIM unless the output was saturated, and the ramp goes on; a following error or the
second lost sample in a row, while it starts too, latches a fault with LFAULT; a loop under FBSRC 0b01 asks for its injected run
as a period begins; the engine stands while no hub drives its balls; on-phases and windows open and close, and a lamp entry
without results for 1 s turns its string off. -/
def Obligations.LoopsRegulate : Prop :=
  ∀ (s : State) (n : Fin 8),
    let l := s.loop n
    let on := s.live = true ∧ s.node.pstate ≠ .fallow ∧ s.node.pstate ≠ .frost
    let engine := on ∧ s.red.drive ≠ none
    let asks := fun (t : State) (x : LoopSt) => t.mon = if x.fbsrc == 1 && x.willCount (n.val < 4) then
      { s.mon with arriving := s.mon.arriving ++ [8 + n.val] } else s.mon
    let lim := fun (x : Int) => max 0 (min 4095 x)
    let turn := fun (o : Bool) (x : LoopSt) => { x with out := o, changes := x.changes + if x.out = o then 0 else 1 }
    let law := fun (i : Instr) (x : LoopSt) (lcs : Nat) =>
      let acts := l.runs = true ∧ l.starting = false ∧ l.onPhase = true ∧ l.off = false ∧ l.gmode ≠ 2
      (¬acts → exec i s = .next (s.setLoop n x)) ∧
      (acts → 5120 < lcs → exec i s = .next (s.setLoop n { turn false x with hold := true })) ∧
      (acts → lcs ≤ 5120 → x.hold = true → exec i s = .next (s.setLoop n x)) ∧
      (acts → lcs ≤ 5120 → x.hold = false → l.out = false →
        exec i s = .next (s.setLoop n (if lcs < lim (l.centre - l.h) then { turn true x with hold := true } else x))) ∧
      (acts → lcs ≤ 5120 → x.hold = false → l.out = true →
        exec i s = .next (s.setLoop n (if lim (l.centre + l.h) < lcs then { turn false x with hold := true } else x)))
    (¬engine → ∀ sum onc cyc o, exec (.loopPeriod n sum onc cyc o) s = .next s) ∧
    (∀ sum onc cyc o, engine → l.wait = none →
      let i := Instr.loopPeriod n sum onc cyc o
      let l0 := { l with dutyOn := onc, dutyAll := cyc, lastCycles := l.changes, sample := none, changes := 0 }
      let reads := fun (v : Int) => l.fbsrc = 0 ∧ cyc ≠ 0 ∧ o = false ∧ v = openDiv 10 sum cyc ∨ l.fbsrc ≠ 0 ∧ l.sample = some (v, false)
      let ramp' := if l.rate = 0 then l.setpt else l.ramp + max (-l.rate) (min l.rate (l.setpt - l.ramp))
      let faulty := fun (f : LoopFault) => Answers i s (fun t =>
        Raised s t 0x8001 ∧ (t.loop n).fault = some f ∧ (t.loop n).out = false ∧ ∀ k, k ≠ n.val → t.loop k = s.loop k)
      (l.runs = false → exec i s = .next s) ∧
      (l.runs = true → l.gmode = 2 ∨ l.starting = false ∧ cyc = 0 → Answers i s (fun t =>
        t = { s.setLoop n l0 with mon := t.mon } ∧ asks t l0)) ∧
      (∀ v, l.runs = true → l.gmode ≠ 2 → l.starting = true → reads v → Answers i s (fun t =>
        (t.loop n).starting = false ∧ (t.loop n).ramp = v ∧ (t.loop n).trim = 0 ∧ (t.loop n).centre = v ∧ (t.loop n).last = v ∧
        asks t (t.loop n))) ∧
      (∀ v, l.runs = true → l.gmode ≠ 2 → l.starting = false → 0 < cyc → reads v →
        (l.felim = 0 → l.nfrz < 2 → 0 < onc → onc < cyc → Answers i s (fun t => (t.loop n).last = v ∧ (t.loop n).ramp = ramp' ∧
          (t.loop n).trim = max (-l.tlim) (min l.tlim (l.trim + (l.ki * (l.ramp - v) + 32768) / 65536)) ∧
          (t.loop n).centre = ramp' + (t.loop n).trim ∧ (t.loop n).out = l.out ∧ asks t (t.loop n))) ∧
        (l.felim = 0 → l.nfrz < 2 → onc = 0 ∨ cyc ≤ onc → Answers i s (fun t => (t.loop n).trim = l.trim ∧ (t.loop n).ramp = ramp' ∧
          Counted s t (figLoops 3 n 2) 1)) ∧
        (l.felim ≠ 0 → l.felim < (l.ramp - v).natAbs → l.fetime ≤ l.follow + 1 → faulty .follow)) ∧
      (l.runs = true → l.gmode ≠ 2 → l.starting = false → 0 < cyc → l.fbsrc = 0 → o = true →
        (l.lostRow = 0 → Answers i s (fun t => (t.loop n).lostRow = 1 ∧ (t.loop n).trim = l.trim ∧ (t.loop n).ramp = ramp' ∧
          Counted s t (figLoops 3 n 1) 1)) ∧
        (1 ≤ l.lostRow → faulty .fbloss)) ∧
      (l.runs = true → l.gmode ≠ 2 → l.starting = true → 0 < cyc → l.fbsrc = 0 → o = true →
        (l.lostRow = 0 → Answers i s (fun t => t.loop n = { l0 with last := openDiv 10 sum cyc, lostRow := 1 } ∧ asks t (t.loop n) ∧
          Counted s t (figLoops 3 n 1) 1)) ∧
        (1 ≤ l.lostRow → faulty .fbloss))) ∧
    ∀ k : Fin 4, k.val = n.val →
      (¬engine → (∀ lcs, exec (.lcsCrossing k lcs) s = .next s ∧ exec (.ldgHoldEnd k lcs) s = .next s) ∧
        ∀ i, i = .pwmPeriod k ∨ i = .pwmOnEnd k → exec i s = .next s) ∧
      (¬on → ∀ i, i = .gateWindowOpen k ∨ i = .gateWindowClose k ∨ i = .lampNtc k → exec i s = .next s) ∧
      (engine → ∀ lcs, law (.lcsCrossing k lcs) l lcs ∧ law (.ldgHoldEnd k lcs) { l with hold := false } lcs) ∧
      (engine → l.gmode = 2 ∨ l.onPhase = false → exec (.pwmOnEnd k) s = .next (s.setLoop k l)) ∧
      (engine → l.gmode ≠ 2 → l.onPhase = true → exec (.pwmOnEnd k) s = .next (s.setLoop k { turn false l with onPhase := false })) ∧
      (engine → l.gmode = 0 → l.waitPwm = none → ∀ k' a b, l.scaleWait = some (k', a, b) →
        let x := { l with scale := k', offHot := a, offNtc := b, scaleWait := none }
        let runs := l.runs && !a && !b && decide (0 < x.onSteps)
        (runs = true → exec (.pwmPeriod k) s = .next (s.setLoop k { x with onPhase := true })) ∧
        (runs = false → exec (.pwmPeriod k) s = .next (s.setLoop k (turn false { x with onPhase := false })))) ∧
      (l.due = 0 → exec (.gateWindowOpen k) s = .next s) ∧
      (on → 0 < l.due → l.gmode ≠ 0 → s.red.drive = none → Answers (.gateWindowOpen k) s (fun t =>
        t = { s.setLoop k { l with due := l.due - 1, opens := l.opens + 1 } with counters := t.counters } ∧
        Counted s t (figLoops 3 k 5) 1)) ∧
      (engine → 0 < l.due → l.gmode = 2 → l.runs = true → l.off = false → Answers (.gateWindowOpen k) s (fun t =>
        t.loop k = turn true { l with due := l.due - 1, opens := l.opens + 1 } ∧ Counted s t (figLoops 3 k 5) 1)) ∧
      (l.opens = 0 → exec (.gateWindowClose k) s = .next s) ∧
      (on → l.opens = 1 → exec (.gateWindowClose k) s = .next (s.setLoop k { turn false l with opens := 0, onPhase := false })) ∧
      (on → 1 < l.opens → exec (.gateWindowClose k) s = .next (s.setLoop k { l with opens := l.opens - 1 })) ∧
      (let b := s.derByte k
       let cur := l.scaleWait.getD (l.scale, l.offHot, l.offNtc)
       ((b.testBit 7 = false ∨ ∃ r, Tbl.get none s.mon.results (b % 64) = some r ∧ s.aonCycles < r.at_ + 50000000) →
         exec (.lampNtc k) s = .next s) ∧
       (on → b.testBit 7 = true → (∀ r, Tbl.get none s.mon.results (b % 64) = some r → r.at_ + 50000000 ≤ s.aonCycles) →
         Answers (.lampNtc k) s (fun t => t.loop k = { l with scaleWait := some (cur.1, cur.2.1, true) } ∧
           (cur.2.2 = false → Raised s t 0x8002))))

/-- Hayward: the oldest event word enters the ring, its entries numbered on, the oldest dropped beyond 2,048 and counted when
unread, and the log's batch when its severity reaches LOGSEV, 64 entries of a code a second, the rest counted as suppressed and
reported at the end of the second; a batch of 8 goes to a page, which both flashes then hold, but the one that fails. Polled
values are kept. The watchdog stops a running Hayward with its memory lost, until it is up again. -/
def Obligations.HaywardKeepsTheLog : Prop :=
  ∀ s : State,
    let y := s.hay
    let runs := s.live = true ∧ y.up = true ∧ s.node.pstate ≠ .fallow ∧ s.node.pstate ≠ .frost
    let store := fun (t : State) (h : Hub) => t.hay.store h
    let kept := fun (l : List EvEntry) => if 522240 < l.length then l.drop 2048 else l
    (¬runs → exec .event s = .next s ∧ exec .logBatch s = .next s ∧ exec .logSupp s = .next s ∧
      ∀ k i v, exec (.haywardPoll k i v) s = .next s) ∧
    (y.fifo = [] → exec .event s = .next s) ∧
    (∀ w rest, runs → y.fifo = w :: rest → y.supp = [] ∨ y.curSec = w.sec →
      let es := w.args.zipIdx.map (fun p => (⟨y.nextSeq + BitVec.ofNat 32 p.2, w.code, w.sev, w.origin, decide (0 < p.2), w.sec,
        w.v / 2 ^ 32, w.v / 2 ^ 16 % 2 ^ 16, p.1⟩ : EvEntry))
      let before := if y.curSec = w.sec then Tbl.get 0 y.logged w.code else 0
      Answers .event s (fun t =>
        t.hay.fifo = rest ∧ t.hay.nextSeq = y.nextSeq + BitVec.ofNat 32 w.args.length ∧ t.hay.curSec = w.sec ∧
        t.hay.ring = (y.ring ++ es).drop (y.ring.length + es.length - 2048) ∧
        t.hay.unread = min 2048 (y.unread + es.length) ∧ t.hay.evlost = min 0xFFFFFFFF (y.evlost + (y.unread + es.length - 2048)) ∧
        (w.sev < s.node.logSev → t.hay.batch = y.batch) ∧
        (s.node.logSev ≤ w.sev → before + es.length ≤ 64 → t.hay.batch = y.batch ++ es ∧ t.hay.supp = y.supp) ∧
        (s.node.logSev ≤ w.sev → w.code ≠ 0x9011 → 64 < before + es.length → t.hay.batch = y.batch ∧
          Tbl.get 0 t.hay.supp w.code = Tbl.get 0 y.supp w.code + es.length) ∧
        t.hay.storeA = y.storeA ∧ t.hay.storeB = y.storeB ∧ t.node = s.node)) ∧
    (runs → y.page = [] → exec .logBatch s = .next { s with hay := { y with page := y.batch.take 8, batch := y.batch.drop 8 } }) ∧
    (y.page ≠ [] → exec .logBatch s = .next s) ∧
    (y.supp = [] → exec .logSupp s = .next s) ∧
    (runs → y.supp ≠ [] → Answers .logSupp s (fun t => t.hay.supp = [] ∧ t.hay.nextSeq = y.nextSeq + 1 ∧
      ∃ e, t.hay.ring.getLast? = some e ∧ e.code = 0x9011 ∧ e.sev = 2 ∧
        e.arg.toNat % 2 ^ 32 = min 0xFFFFFFFF (y.supp.map (fun p => p.2)).sum)) ∧
    (∀ k i v, runs → i < 4096 → exec (.haywardPoll k i v) s =
      .next { s with hay := { y with values := Tbl.set (0, 0) y.values (k * 4096 + i) (v, s.waitTime) } }) ∧
    (s.live = true → Answers .flashDone s (fun t => t = { s with hay := t.hay } ∧ t.hay.page = [] ∧
      ∀ h, store t h = if h = s.red.active ∨ s.red.lockstep = true then { y.store h with log := kept ((y.store h).log ++ y.page) }
        else y.store h)) ∧
    (∀ h, s.live = true → Answers (.flashFail h) s (fun t => t.hay.page = [] ∧ Raised s t 0x900D ∧ store t h = y.store h ∧
      (h = s.red.active.other → store t s.red.active =
        { y.store s.red.active with log := kept ((y.store s.red.active).log ++ y.page) }) ∧
      (if h = .a then t.hay.failsA else t.hay.failsB) = (if h = .a then y.failsA else y.failsB) + 1)) ∧
    (s.live = false → exec .flashDone s = .next s ∧ exec .fwWdog s = .next s ∧ exec .haywardUp s = .next s ∧
      ∀ h, exec (.flashFail h) s = .next s) ∧
    (runs → s.node.mode ≠ .seed → Answers .fwWdog s (fun t =>
      Raised s t 0x9010 ∧ t.hay.up = false ∧ t.hay.ring = [] ∧ t.hay.unread = 0 ∧ t.hay.batch = [] ∧ t.hay.page = [] ∧
      t.hay.nextSeq = (((y.store s.red.active).log.getLast?).map (fun e => e.seq + 1)).getD 0 ∧
      t.hay.storeA = y.storeA ∧ t.hay.storeB = y.storeB)) ∧
    (s.live = true → y.up = false → s.node.mode ≠ .seed → s.node.pstate ≠ .fallow → s.node.pstate ≠ .frost →
      Answers .haywardUp s (fun t => t.hay.up = true ∧ (∃ e, e ∈ t.hay.fifo ∧ e.code = 0x9006) ∧
        (store t s.red.active).control.trial = 0)) ∧
    (y.up = true → exec .haywardUp s = .next s)

/-- Tally units: a comparator edge, stamped and counted once by the TDC of its pin, waits in the units of its pin and slope; a
REFCLK edge is stamped and counted once by its TDC; a stamp within the gate is numbered by the nearest whole number of PNOM, or
is a slip when it lies more than PNOM/4 off or on no later number, and beyond a continuous gate it waits; a gate opens at the
first slice boundary after the set-up took effect or at its XTAL stamp and closes after its length; a closed gate, its slices
out, takes the stamps that waited by their value and gives a record with STAT, COUNT, DEV and slips, and the unit goes on with
its continuous gate, its waiting set-up or idle. A difference run with its K pulses gives a record for every channel. -/
def Obligations.TalliesMeasure : Prop :=
  ∀ (s : State) (u : Fin 8),
    let y := s.tally u
    let ends := fun (i : Instr) => 
      ∃ st c tick, i = .tallyStamp u st c ∨ i = .tallyGateOpen u st ∨ i = .tallyGateClose u ∨ i = .tallyResult u tick
    let takes := fun (pin : Fin 2) (f : Bool) (k : Nat) =>
      ∃ x, (s.tally k).setup = some x ∧ x.diff = false ∧ x.src = 1 + pin.val ∧ x.slope = f
    (∀ pin f cycle code,
      (s.live = false ∨ (∀ k, k < 8 → ¬takes pin f k) → exec (.tinEdge pin f cycle code) s = .next s) ∧
      (s.live = true → (∃ k, k < 8 ∧ takes pin f k) → Answers (.tinEdge pin f cycle code) s (fun t =>
        t = { s with tallies := t.tallies, tdcs := t.tdcs } ∧ t.tdc (4097 + pin) = (s.tdc (4097 + pin)).edge code ∧
        (∀ k, k ≠ 4097 + pin.val → t.tdc k = s.tdc k) ∧ ∀ k, k < 8 →
          (takes pin f k → t.tally k = { s.tally k with
            stamps := (s.tally k).stamps ++ [(s.tdc (4097 + pin)).stamp cycle code] }) ∧
          (¬takes pin f k → t.tally k = s.tally k)))) ∧
    (∀ i, ends i ∨ i = .differenceResult u → (y.setup = none → exec i s = .next s) ∧ (s.live = false → exec i s = .next s)) ∧
    (∀ i x, y.setup = some x → x.diff = true → ends i → exec i s = .next s) ∧
    (∀ x, y.setup = some x → s.live = true → x.diff = false →
      let xtal := decide (x.src ≤ 2)
      let len := if xtal then x.gate * 1200000 * 512 else x.gate * 1280000 * 512
      let start := s.fullSlice * 4096 * 512
      (∀ st code, x.src ≠ 0 → st ∉ y.stamps → exec (.tallyStamp u st code) s = .next s) ∧
      (∀ (stamp : Nat) (code : Fin 513), x.src = 0 ∨ stamp ∈ y.stamps →
        let z := y.sums
        let st := if x.src = 0 then (s.tdc 4096).stamp stamp code else stamp
        let y' := if x.src = 0 then y else { y with stamps := y.stamps.erase stamp }
        let first := ∀ k, k < u.val → ∀ x, (s.tally k).setup = some x → x.diff = false → x.src ≠ 0
        let gives := fun (z : Tally) => Answers (.tallyStamp u stamp code) s (fun t =>
          t = { s.setTally u z with tdcs := t.tdcs } ∧ (x.src ≠ 0 ∨ ¬first → t.tdcs = s.tdcs) ∧
          (x.src = 0 → first → t.tdc 4096 = (s.tdc 4096).edge code ∧ ∀ k, k ≠ 4096 → t.tdc k = s.tdc k))
        (y.opened = false ∨ st < y.openAt → gives y') ∧
        (y.opened = true → y.openAt + len ≤ st → gives (if x.cont then { y' with stamps := y'.stamps ++ [st] } else y')) ∧
        (y.opened = true → y.openAt ≤ st → st < y.openAt + len → ∃ z', gives { y' with sums := z' } ∧
          let t : Int := (st : Int) - y.openAt
          let d := t - z.prevT
          let m := nearest d x.pnom
          let taken := fun (n : Int) => z' = { z with
            n := z.n + 1, sn := z.sn + n, st := z.st + t, snn := z.snn + n * n
            snt := z.snt + n * t, stt := z.stt + t * t, prevT := t, prevN := n }
          (z.n = 0 → taken 0) ∧
          (z.n ≠ 0 → m ≠ 0 → 4 * (d - m * x.pnom).natAbs ≤ x.pnom → taken (z.prevN + m)) ∧
          (z.n ≠ 0 → m = 0 ∨ x.pnom < 4 * (d - m * x.pnom).natAbs → z' = { z with slips := z.slips + 1 }))) ∧
      (∀ st, (y.opened = true → exec (.tallyGateOpen u st) s = .next s) ∧
        (xtal = false → s.fullSlice ≤ y.readySl → exec (.tallyGateOpen u st) s = .next s) ∧
        (y.opened = false → xtal = true ∨ y.readySl < s.fullSlice → exec (.tallyGateOpen u st) s = .next (s.setTally u { y with
          opened := true, closed := false, sums := TallySums.zero, openAt := if xtal then st else (y.readySl + 1) * 4096 * 512
          hold := if xtal then false else s.node.refLost }))) ∧
      (y.opened = false ∨ xtal = false ∧ start < y.openAt + len → exec (.tallyGateClose u) s = .next s) ∧
      (y.opened = true → xtal = true ∨ y.openAt + len ≤ start →
        exec (.tallyGateClose u) s = .next (s.setTally u { y with closed := true })) ∧
      let z := (y.stamps.foldl (fun (a : Tally) st => a.feed x st) { y with stamps := [] }).sums
      (∀ tick, y.closed = false → exec (.tallyResult u tick) s = .next s) ∧
      (∀ tick, y.closed = true → xtal = true ∨ (∃ k, s.ring.newest = some k ∧ ((y.openAt + len) / (512 * 4096) : Nat) ≤ k) →
        Answers (.tallyResult u tick) s (fun t => ∃ r : Rec128,
          t.core = { s.core with service := s.core.service ++ [r] } ∧
          r.toNat / 2 ^ 124 = 6 ∧ r.toNat / 2 ^ 121 % 8 = u.val ∧ r.toNat / 2 ^ 118 % 8 = x.src % 8 ∧
          r.toNat / 2 ^ 115 % 8 = (if z.n < 3 then 1 else if z.n + z.slips < 100 * z.slips then 2 else if y.hold then 3 else 0) ∧
          r.toNat / 2 ^ 83 % 2 ^ 32 = z.n % 2 ^ 32 ∧ r.toNat / 2 ^ 19 % 2 ^ 16 = min z.slips 0xFFFF ∧
          r.toNat / 2 ^ 11 % 2 ^ 8 = y.gseq.toNat ∧
          (let sxx := z.n * z.snn - z.sn * z.sn
           let sxy := z.n * z.snt - z.sn * z.st
           3 ≤ z.n → 0 < sxy → (r.extractLsb' 51 32).toInt =
            clampInt (-(2 ^ 31 - 1)) (2 ^ 31 - 1) (nearest ((x.pnom * sxx - sxy) * 2 ^ 36) sxy.toNat)) ∧
          (t.tally u).result = some r ∧ (t.tally u).gseq = y.gseq + 1 ∧
          (∀ x', y.nextSetup = some x' → (t.tally u).setup = some x' ∧ (t.tally u).opened = false ∧
            (t.tally u).readySl = (y.openAt + len) / (512 * 4096)) ∧
          (let dev := (r.extractLsb' 51 32).toInt
           s.checksRef u x = true → 3 ≤ z.n → 1000000 * dev.natAbs ≤ 250 * 2 ^ 36 → t.node.refSeen = true) ∧
          (y.nextSetup = none → x.cont = false → (t.tally u).setup = none) ∧
          (y.nextSetup = none → x.cont = true → y.stamps = [] → (t.tally u).openAt = y.openAt + len ∧
            (t.tally u).sums = TallySums.zero ∧ (t.tally u).closed = false ∧ (t.tally u).setup = some x) ∧
          (u ≠ 7 ∨ x.src ≠ 0 → t.hay = s.hay ∧ ∀ k, k ≠ u.val → t.tally k = s.tally k)))) ∧
    ∀ x, y.setup = some x →
      (x.diff = false ∨ y.pulses.length < x.k → exec (.differenceResult u) s = .next s) ∧
      (s.live = true → x.diff = true → x.k ≤ y.pulses.length →
        (∃ k, s.ring.newest = some k ∧ (y.pulses.getLastD 0 + x.win) / 4096 ≤ k) →
        Answers (.differenceResult u) s (fun t => ∃ rs : List Rec128,
          t.core.service = s.core.service ++ rs ∧ rs.length = 4096 ∧
          (∀ ch, ch < 4096 → (rs.getD ch 0).toNat / 2 ^ 112 = 5 * 2 ^ 12 + ch ∧ (rs.getD ch 0).toNat / 2 ^ 109 % 8 = u.val) ∧
          Raised s t 0x900F ∧ (x.target = 2 → (t.tally u).baseRef = some x.chan) ∧ (x.target ≠ 2 → (t.tally u).base = y.base) ∧
          (y.nextSetup = none → (t.tally u).setup = none) ∧
          (x.target ≤ 1 → s.loaded = true → ∃ d, d ∈ t.core.tableDue ∧ d.id = 0x02 ∧ d.bytes.length = 16384)))
end

