-- ==== Sys2Proof/Laws/Tbl.lean ====
section
/-!
SUPPORT. What the operations of a sparse table do: a read after a write, writes elsewhere, and the canonical form.
-/

namespace Sys2Proof.Tbl

variable {α : Type} (d : α)

theorem get_put (t : Tbl α) (i j : Nat) (v : α) : get d (put i v t) j = if j = i then v else get d t j := by
  induction t with
  | nil => simp [put, get]
  | cons p t ih =>
    obtain ⟨k, w⟩ := p
    by_cases h1 : i < k
    · simp [put, h1, get]
    · by_cases h2 : i = k
      · subst h2; by_cases h3 : j = i <;> simp [put, get, h3]
      · by_cases h3 : j = k
        · have : ¬ j = i := by omega
          subst h3; simp [put, h1, h2, get, this]
        · simp [put, h1, h2, get, h3, ih]

theorem get_del (t : Tbl α) (i j : Nat) : get d (del i t) j = if j = i then d else get d t j := by
  induction t with
  | nil => simp [del, get]
  | cons p t ih =>
    obtain ⟨k, w⟩ := p
    by_cases h2 : i = k
    · subst h2; by_cases h3 : j = i
      · subst h3; simpa [del] using ih
      · simp [del, get, h3, ih]
    · by_cases h3 : j = k
      · have : ¬ j = i := by omega
        subst h3; simp [del, h2, get, this]
      · simp [del, h2, get, h3, ih]

variable [DecidableEq α]

/-- A read after a write: the value written at its index, the old value at every other index. -/
theorem get_set (t : Tbl α) (i j : Nat) (v : α) : get d (set d t i v) j = if j = i then v else get d t j := by
  unfold set
  split
  · rename_i h; rw [get_del]; simp [h]
  · exact get_put d t i j v

@[simp] theorem get_set_self (t : Tbl α) (i : Nat) (v : α) : get d (set d t i v) i = v := by simp [get_set]

theorem get_set_ne (t : Tbl α) (i j : Nat) (v : α) (h : j ≠ i) : get d (set d t i v) j = get d t j := by simp [get_set, h]

/-- The canonical form in terms of a lower bound on the indices. -/
def Above : Nat → Tbl α → Prop
  | _, [] => True
  | n, (k, v) :: t => n ≤ k ∧ v ≠ d ∧ Above (k + 1) t

omit [DecidableEq α] in
theorem above_mono {m n : Nat} {t : Tbl α} (h : Above d n t) (hm : m ≤ n) : Above d m t := by
  cases t with
  | nil => trivial
  | cons p t => exact ⟨Nat.le_trans hm h.1, h.2⟩

theorem wf_cons (k : Nat) (v : α) (t : Tbl α) : wf d ((k, v) :: t) = true ↔ v ≠ d ∧ Above d (k + 1) t := by
  induction t generalizing k v with
  | nil => simp [wf, Above]
  | cons p t ih =>
    obtain ⟨k', v'⟩ := p
    simp only [wf, Bool.and_eq_true, decide_eq_true_eq, ih, Above]
    constructor
    · rintro ⟨⟨h1, h2⟩, h3, h4⟩; exact ⟨h2, by omega, h3, h4⟩
    · rintro ⟨h2, h1, h3, h4⟩; exact ⟨⟨by omega, h2⟩, h3, h4⟩

theorem wf_iff_above (t : Tbl α) : wf d t = true ↔ Above d 0 t := by
  cases t with
  | nil => simp [wf, Above]
  | cons p t => obtain ⟨k, v⟩ := p; rw [wf_cons]; simp [Above]

omit [DecidableEq α] in
theorem above_put (n : Nat) (t : Tbl α) (i : Nat) (v : α) (hi : n ≤ i) (hv : v ≠ d) (h : Above d n t) :
    Above d n (put i v t) := by
  induction t generalizing n with
  | nil => exact ⟨hi, hv, trivial⟩
  | cons p t ih =>
    obtain ⟨k, w⟩ := p
    unfold put
    split
    · exact ⟨hi, hv, by omega, h.2.1, h.2.2⟩
    · split
      · rename_i h2; subst h2; exact ⟨hi, hv, h.2.2⟩
      · exact ⟨h.1, h.2.1, ih (k + 1) (by omega) h.2.2⟩

omit [DecidableEq α] in
theorem above_del (n : Nat) (t : Tbl α) (i : Nat) (h : Above d n t) : Above d n (del i t) := by
  induction t generalizing n with
  | nil => exact trivial
  | cons p t ih =>
    obtain ⟨k, w⟩ := p
    unfold del
    split
    · exact ih n (above_mono d h.2.2 (by have := h.1; omega))
    · exact ⟨h.1, h.2.1, ih (k + 1) h.2.2⟩

/-- A write keeps the canonical form. -/
theorem wf_set (t : Tbl α) (i : Nat) (v : α) (h : wf d t = true) : wf d (set d t i v) = true := by
  rw [wf_iff_above] at *
  unfold set
  split
  · exact above_del d 0 t i h
  · rename_i hv; exact above_put d 0 t i v (Nat.zero_le _) hv h

end Sys2Proof.Tbl
end

