-- ==== Sys2Proof/Laws/Gleaners.lean ====
section
/-!
SUPPORT. What the shared operations of the gleaner instructions do: a register write, a wisp write, the move of PC, and the issue of
an instruction.
-/

namespace Sys2Proof.Machine

theorem testBit_setP {n : Nat} (m : BitVec n) (i j : Nat) (p : Bool) (hi : i < n) (hj : j < n) :
    (if p then m ||| BitVec.ofNat n (2 ^ i) else m &&& ~~~ BitVec.ofNat n (2 ^ i)).getLsbD j =
      if j = i then p else m.getLsbD j := by
  have h : (BitVec.ofNat n (2 ^ i)).getLsbD j = decide (j = i) := by
    rw [BitVec.getLsbD_ofNat]; simp [hj, Nat.testBit_two_pow, eq_comm]
  cases p <;> by_cases hji : j = i <;> simp_all

/-- setG changes one general register and its P bit (R143). -/
theorem Gleaner.setG_writes (x : Gleaner) (i : Nat) (v : BitVec 64) (p : Bool) (hi : i < 32) :
    x.WritesG (x.setG i v p) i v p := by
  intro j hj
  by_cases h0 : i = 0
  · simp [Gleaner.setG, h0]
  · by_cases hji : j = i
    · subst hji
      have h := testBit_setP x.pg j j p hi hi
      simp only [Gleaner.setG, h0, Gleaner.g, Gleaner.p, if_false, ne_eq, not_false_eq_true, and_self, if_true]
      exact ⟨by simp, by rw [h]; simp [h0]⟩
    · have h := testBit_setP x.pg i j p hi hj
      simp only [Gleaner.setG, h0, Gleaner.g, Gleaner.p, if_false, hji, false_and]
      exact ⟨by simp [Tbl.get_set, hji], by rw [h]; simp [hji]⟩

theorem Gleaner.setG_keeps (x : Gleaner) (i : Nat) (v : BitVec 64) (p : Bool) :
    { x.setG i v p with regs := x.regs, pg := x.pg } = x := by
  unfold Gleaner.setG; split <;> rfl

/-- setW changes one wisp and its P bit (R143). -/
theorem Gleaner.setW_writes (x : Gleaner) (i : Nat) (v : Rec128) (p : Bool) (hi : i < 4) :
    x.WritesW (x.setW i v p) i v p := by
  intro j hj
  have h := testBit_setP x.pw i j p hi hj
  exact ⟨by simp [Gleaner.setW, Gleaner.w, Tbl.get_set], h⟩

theorem Gleaner.setW_keeps (x : Gleaner) (i : Nat) (v : Rec128) (p : Bool) :
    { x.setW i v p with wisps := x.wisps, pw := x.pw } = x := rfl

/-- goto moves PC or faults (R143, R169), and ends a wait. -/
theorem Gleaner.goto_goes (x : Gleaner) (a : Int) : x.GoesTo (x.goto a) a := by
  refine ⟨fun h => ?_, fun h => ?_⟩
  · have h' := h
    unfold CodeAddr at h'
    simp only [Gleaner.goto, if_pos h', BitVec.toNat_ofInt, and_true]
    omega
  · simp only [Gleaner.goto, if_neg (show ¬(0 ≤ a ∧ a < 0x20000 ∧ a % 4 = 0) from h), and_self]

theorem Gleaner.goto_keeps (x : Gleaner) (a : Int) (hw : x.wait = .run) :
    { x.goto a with pc := x.pc, fault := x.fault } = x := by
  unfold Gleaner.goto; split <;> cases x <;> simp_all

theorem Gleaner.next_goes (x : Gleaner) : x.GoesOn x.next := Gleaner.goto_goes x (x.pc.toNat + 4)

/-- The issue of an instruction whose word is legal: its effect on the node. -/
theorem State.issue_runs (s : State) (g : Nat) (op : Nat) (legal : Nat → Bool) (f : Nat → Gleaner → State → State)
    (w : Nat) (hi : s.issues g = true) (hw : s.codeWord (s.gleaner g).pc = w) (ho : opField w = op) (hl : legal w = true) :
    s.issue g op legal f = f w (s.gleaner g) s := by
  subst hw
  simp [State.issue, hi, ho, hl]

theorem State.issues_run (s : State) (g : Nat) (hi : s.issues g = true) :
    (s.gleaner g).wait = .run ∧ (s.gleaner g).fault = none := by
  simp [State.issues] at hi
  exact ⟨hi.2, by simpa using hi.1.2⟩

end Sys2Proof.Machine
end

