-- ==== Sys2Proof/Laws/State.lean ====
section
/-!
SUPPORT. What the accessors of State and the operations on events, counters and outputs change: one lemma for each field that an
update leaves alone, and one for what it writes.
-/

namespace Sys2Proof.Machine

variable (s : State)

/-! ### Reading what was written -/

@[simp] theorem State.fe_setFe (i j : Nat) (x : Fe) : (s.setFe i x).fe j = if j = i then x else s.fe j := Tbl.get_set ..
@[simp] theorem State.cell_setCell (i j : Nat) (x : Cell) : (s.setCell i x).cell j = if j = i then x else s.cell j := Tbl.get_set ..
@[simp] theorem State.tdc_setTdc (i j : Nat) (x : ChanTdc) : (s.setTdc i x).tdc j = if j = i then x else s.tdc j := Tbl.get_set ..
@[simp] theorem State.block_setBlock (i j : Nat) (x : Block) : (s.setBlock i x).block j = if j = i then x else s.block j := Tbl.get_set ..
@[simp] theorem State.sorter_setSorter (i j : Nat) (x : Sorter) : (s.setSorter i x).sorter j = if j = i then x else s.sorter j := Tbl.get_set ..
@[simp] theorem State.ingress_setIngress (i j : Nat) (x : List SRec) : (s.setIngress i x).ingress j = if j = i then x else s.ingress j := Tbl.get_set ..
@[simp] theorem State.gleaner_setGleaner (i j : Nat) (x : Gleaner) : (s.setGleaner i x).gleaner j = if j = i then x else s.gleaner j := Tbl.get_set ..
@[simp] theorem State.deque_setDeque (i j : Nat) (x : List Sheaf) : (s.setDeque i x).deque j = if j = i then x else s.deque j := Tbl.get_set ..
@[simp] theorem State.cring_setCring (i j : Nat) (x : CmdRing) : (s.setCring i x).cring j = if j = i then x else s.cring j := Tbl.get_set ..
@[simp] theorem State.dring_setDring (i j : Nat) (x : DataRing) : (s.setDring i x).dring j = if j = i then x else s.dring j := Tbl.get_set ..
@[simp] theorem State.port_setPort (i j : Nat) (x : Port) : (s.setPort i x).port j = if j = i then x else s.port j := Tbl.get_set ..
@[simp] theorem State.gen_setGen (i j : Nat) (x : ToutGen) : (s.setGen i x).gen j = if j = i then x else s.gen j := Tbl.get_set ..
@[simp] theorem State.tally_setTally (i j : Nat) (x : Tally) : (s.setTally i x).tally j = if j = i then x else s.tally j := Tbl.get_set ..
@[simp] theorem State.loop_setLoop (i j : Nat) (x : LoopSt) : (s.setLoop i x).loop j = if j = i then x else s.loop j := Tbl.get_set ..
@[simp] theorem State.baler_setBaler (i j : Nat) (x : Baler) : (s.setBaler i x).baler j = if j = i then x else s.baler j := Tbl.get_set ..
@[simp] theorem State.table_setTable (i j : Nat) (x : List Host.Cell) : (s.setTable i x).table j = if j = i then x else s.table j := Tbl.get_set ..

@[simp] theorem State.ep_setEp (h k : Hub) (x : Endpoint) : (s.setEp h x).ep k = if k = h then x else s.ep k := by
  cases h <;> cases k <;> rfl

@[simp] theorem State.hubRed_setHubRed (h k : Hub) (x : HubRed) :
    (s.setHubRed h x).hubRed k = if k = h then x else s.hubRed k := by
  cases h <;> cases k <;> rfl

@[simp] theorem Port.copy_setCopy (p : Port) (h k : Hub) (c : PortCopy) : (p.setCopy h c).copy k = if k = h then c else p.copy k := by
  cases h <;> cases k <;> rfl

@[simp] theorem Hayward.store_setStore (y : Hayward) (h k : Hub) (x : Store) :
    (y.setStore h x).store k = if k = h then x else y.store k := by
  cases h <;> cases k <;> rfl

@[simp] theorem Fe.link_setLink (f : Fe) (h k : Hub) (l : RLink) : (f.setLink h l).link k = if k = h then l else f.link k := by
  cases h <;> cases k <;> rfl

/-! ### Updates by a function -/

@[simp] theorem State.modFe_eq (d : Nat) (g : Fe → Fe) : s.modFe d g = s.setFe d (g (s.fe d)) := rfl
@[simp] theorem State.modCell_eq (d : Nat) (g : Cell → Cell) : s.modCell d g = s.setCell d (g (s.cell d)) := rfl
@[simp] theorem State.modTdc_eq (d : Nat) (g : ChanTdc → ChanTdc) : s.modTdc d g = s.setTdc d (g (s.tdc d)) := rfl
@[simp] theorem State.modBlock_eq (d : Nat) (g : Block → Block) : s.modBlock d g = s.setBlock d (g (s.block d)) := rfl
@[simp] theorem State.modSorter_eq (d : Nat) (g : Sorter → Sorter) : s.modSorter d g = s.setSorter d (g (s.sorter d)) := rfl
@[simp] theorem State.modGleaner_eq (d : Nat) (g : Gleaner → Gleaner) : s.modGleaner d g = s.setGleaner d (g (s.gleaner d)) := rfl
@[simp] theorem State.modPort_eq (d : Nat) (g : Port → Port) : s.modPort d g = s.setPort d (g (s.port d)) := rfl
@[simp] theorem State.modLoop_eq (d : Nat) (g : LoopSt → LoopSt) : s.modLoop d g = s.setLoop d (g (s.loop d)) := rfl
@[simp] theorem State.modHubRed_eq (h : Hub) (g : HubRed → HubRed) : s.modHubRed h g = s.setHubRed h (g (s.hubRed h)) := rfl

/-! ### Conditions and free values -/

@[simp] theorem State.when_true (f : State → State) : s.when true f = f s := rfl
@[simp] theorem State.when_false (f : State → State) : s.when false f = s := rfl
@[simp] theorem State.takeFree_state : s.takeFree.2 = { s with free := s.free + 1 } := rfl


/-! ### setFe -/

@[simp] theorem State.setFe_pending (d : Nat) (f : Fe) : (s.setFe d f).pending = s.pending := rfl
@[simp] theorem State.setFe_node (d : Nat) (f : Fe) : (s.setFe d f).node = s.node := rfl
@[simp] theorem State.setFe_clock (d : Nat) (f : Fe) : (s.setFe d f).clock = s.clock := rfl
@[simp] theorem State.setFe_cells (d : Nat) (f : Fe) : (s.setFe d f).cells = s.cells := rfl
@[simp] theorem State.setFe_tdcs (d : Nat) (f : Fe) : (s.setFe d f).tdcs = s.tdcs := rfl
@[simp] theorem State.setFe_blocks (d : Nat) (f : Fe) : (s.setFe d f).blocks = s.blocks := rfl
@[simp] theorem State.setFe_lanes (d : Nat) (f : Fe) : (s.setFe d f).lanes = s.lanes := rfl
@[simp] theorem State.setFe_core (d : Nat) (f : Fe) : (s.setFe d f).core = s.core := rfl
@[simp] theorem State.setFe_gmem (d : Nat) (f : Fe) : (s.setFe d f).gmem = s.gmem := rfl
@[simp] theorem State.setFe_tables (d : Nat) (f : Fe) : (s.setFe d f).tables = s.tables := rfl
@[simp] theorem State.setFe_ring (d : Nat) (f : Fe) : (s.setFe d f).ring = s.ring := rfl
@[simp] theorem State.setFe_window (d : Nat) (f : Fe) : (s.setFe d f).window = s.window := rfl
@[simp] theorem State.setFe_windowB (d : Nat) (f : Fe) : (s.setFe d f).windowB = s.windowB := rfl
@[simp] theorem State.setFe_trig (d : Nat) (f : Fe) : (s.setFe d f).trig = s.trig := rfl
@[simp] theorem State.setFe_balers (d : Nat) (f : Fe) : (s.setFe d f).balers = s.balers := rfl
@[simp] theorem State.setFe_jobs (d : Nat) (f : Fe) : (s.setFe d f).jobs = s.jobs := rfl
@[simp] theorem State.setFe_pcie (d : Nat) (f : Fe) : (s.setFe d f).pcie = s.pcie := rfl
@[simp] theorem State.setFe_foda (d : Nat) (f : Fe) : (s.setFe d f).foda = s.foda := rfl
@[simp] theorem State.setFe_time (d : Nat) (f : Fe) : (s.setFe d f).time = s.time := rfl
@[simp] theorem State.setFe_tallies (d : Nat) (f : Fe) : (s.setFe d f).tallies = s.tallies := rfl
@[simp] theorem State.setFe_red (d : Nat) (f : Fe) : (s.setFe d f).red = s.red := rfl
@[simp] theorem State.setFe_mon (d : Nat) (f : Fe) : (s.setFe d f).mon = s.mon := rfl
@[simp] theorem State.setFe_thermal (d : Nat) (f : Fe) : (s.setFe d f).thermal = s.thermal := rfl
@[simp] theorem State.setFe_loopA (d : Nat) (f : Fe) : (s.setFe d f).loopA = s.loopA := rfl
@[simp] theorem State.setFe_loopB (d : Nat) (f : Fe) : (s.setFe d f).loopB = s.loopB := rfl
@[simp] theorem State.setFe_loops (d : Nat) (f : Fe) : (s.setFe d f).loops = s.loops := rfl
@[simp] theorem State.setFe_hay (d : Nat) (f : Fe) : (s.setFe d f).hay = s.hay := rfl
@[simp] theorem State.setFe_counters (d : Nat) (f : Fe) : (s.setFe d f).counters = s.counters := rfl
@[simp] theorem State.setFe_free (d : Nat) (f : Fe) : (s.setFe d f).free = s.free := rfl

/-! ### setCell -/

@[simp] theorem State.setCell_pending (c : Nat) (x : Cell) : (s.setCell c x).pending = s.pending := rfl
@[simp] theorem State.setCell_node (c : Nat) (x : Cell) : (s.setCell c x).node = s.node := rfl
@[simp] theorem State.setCell_clock (c : Nat) (x : Cell) : (s.setCell c x).clock = s.clock := rfl
@[simp] theorem State.setCell_fes (c : Nat) (x : Cell) : (s.setCell c x).fes = s.fes := rfl
@[simp] theorem State.setCell_tdcs (c : Nat) (x : Cell) : (s.setCell c x).tdcs = s.tdcs := rfl
@[simp] theorem State.setCell_blocks (c : Nat) (x : Cell) : (s.setCell c x).blocks = s.blocks := rfl
@[simp] theorem State.setCell_lanes (c : Nat) (x : Cell) : (s.setCell c x).lanes = s.lanes := rfl
@[simp] theorem State.setCell_core (c : Nat) (x : Cell) : (s.setCell c x).core = s.core := rfl
@[simp] theorem State.setCell_gmem (c : Nat) (x : Cell) : (s.setCell c x).gmem = s.gmem := rfl
@[simp] theorem State.setCell_tables (c : Nat) (x : Cell) : (s.setCell c x).tables = s.tables := rfl
@[simp] theorem State.setCell_ring (c : Nat) (x : Cell) : (s.setCell c x).ring = s.ring := rfl
@[simp] theorem State.setCell_window (c : Nat) (x : Cell) : (s.setCell c x).window = s.window := rfl
@[simp] theorem State.setCell_windowB (c : Nat) (x : Cell) : (s.setCell c x).windowB = s.windowB := rfl
@[simp] theorem State.setCell_trig (c : Nat) (x : Cell) : (s.setCell c x).trig = s.trig := rfl
@[simp] theorem State.setCell_balers (c : Nat) (x : Cell) : (s.setCell c x).balers = s.balers := rfl
@[simp] theorem State.setCell_jobs (c : Nat) (x : Cell) : (s.setCell c x).jobs = s.jobs := rfl
@[simp] theorem State.setCell_pcie (c : Nat) (x : Cell) : (s.setCell c x).pcie = s.pcie := rfl
@[simp] theorem State.setCell_foda (c : Nat) (x : Cell) : (s.setCell c x).foda = s.foda := rfl
@[simp] theorem State.setCell_time (c : Nat) (x : Cell) : (s.setCell c x).time = s.time := rfl
@[simp] theorem State.setCell_tallies (c : Nat) (x : Cell) : (s.setCell c x).tallies = s.tallies := rfl
@[simp] theorem State.setCell_red (c : Nat) (x : Cell) : (s.setCell c x).red = s.red := rfl
@[simp] theorem State.setCell_mon (c : Nat) (x : Cell) : (s.setCell c x).mon = s.mon := rfl
@[simp] theorem State.setCell_thermal (c : Nat) (x : Cell) : (s.setCell c x).thermal = s.thermal := rfl
@[simp] theorem State.setCell_loopA (c : Nat) (x : Cell) : (s.setCell c x).loopA = s.loopA := rfl
@[simp] theorem State.setCell_loopB (c : Nat) (x : Cell) : (s.setCell c x).loopB = s.loopB := rfl
@[simp] theorem State.setCell_loops (c : Nat) (x : Cell) : (s.setCell c x).loops = s.loops := rfl
@[simp] theorem State.setCell_hay (c : Nat) (x : Cell) : (s.setCell c x).hay = s.hay := rfl
@[simp] theorem State.setCell_counters (c : Nat) (x : Cell) : (s.setCell c x).counters = s.counters := rfl
@[simp] theorem State.setCell_free (c : Nat) (x : Cell) : (s.setCell c x).free = s.free := rfl

/-! ### setTdc -/

@[simp] theorem State.setTdc_pending (c : Nat) (x : ChanTdc) : (s.setTdc c x).pending = s.pending := rfl
@[simp] theorem State.setTdc_node (c : Nat) (x : ChanTdc) : (s.setTdc c x).node = s.node := rfl
@[simp] theorem State.setTdc_clock (c : Nat) (x : ChanTdc) : (s.setTdc c x).clock = s.clock := rfl
@[simp] theorem State.setTdc_fes (c : Nat) (x : ChanTdc) : (s.setTdc c x).fes = s.fes := rfl
@[simp] theorem State.setTdc_cells (c : Nat) (x : ChanTdc) : (s.setTdc c x).cells = s.cells := rfl
@[simp] theorem State.setTdc_blocks (c : Nat) (x : ChanTdc) : (s.setTdc c x).blocks = s.blocks := rfl
@[simp] theorem State.setTdc_lanes (c : Nat) (x : ChanTdc) : (s.setTdc c x).lanes = s.lanes := rfl
@[simp] theorem State.setTdc_core (c : Nat) (x : ChanTdc) : (s.setTdc c x).core = s.core := rfl
@[simp] theorem State.setTdc_gmem (c : Nat) (x : ChanTdc) : (s.setTdc c x).gmem = s.gmem := rfl
@[simp] theorem State.setTdc_tables (c : Nat) (x : ChanTdc) : (s.setTdc c x).tables = s.tables := rfl
@[simp] theorem State.setTdc_ring (c : Nat) (x : ChanTdc) : (s.setTdc c x).ring = s.ring := rfl
@[simp] theorem State.setTdc_window (c : Nat) (x : ChanTdc) : (s.setTdc c x).window = s.window := rfl
@[simp] theorem State.setTdc_windowB (c : Nat) (x : ChanTdc) : (s.setTdc c x).windowB = s.windowB := rfl
@[simp] theorem State.setTdc_trig (c : Nat) (x : ChanTdc) : (s.setTdc c x).trig = s.trig := rfl
@[simp] theorem State.setTdc_balers (c : Nat) (x : ChanTdc) : (s.setTdc c x).balers = s.balers := rfl
@[simp] theorem State.setTdc_jobs (c : Nat) (x : ChanTdc) : (s.setTdc c x).jobs = s.jobs := rfl
@[simp] theorem State.setTdc_pcie (c : Nat) (x : ChanTdc) : (s.setTdc c x).pcie = s.pcie := rfl
@[simp] theorem State.setTdc_foda (c : Nat) (x : ChanTdc) : (s.setTdc c x).foda = s.foda := rfl
@[simp] theorem State.setTdc_time (c : Nat) (x : ChanTdc) : (s.setTdc c x).time = s.time := rfl
@[simp] theorem State.setTdc_tallies (c : Nat) (x : ChanTdc) : (s.setTdc c x).tallies = s.tallies := rfl
@[simp] theorem State.setTdc_red (c : Nat) (x : ChanTdc) : (s.setTdc c x).red = s.red := rfl
@[simp] theorem State.setTdc_mon (c : Nat) (x : ChanTdc) : (s.setTdc c x).mon = s.mon := rfl
@[simp] theorem State.setTdc_thermal (c : Nat) (x : ChanTdc) : (s.setTdc c x).thermal = s.thermal := rfl
@[simp] theorem State.setTdc_loopA (c : Nat) (x : ChanTdc) : (s.setTdc c x).loopA = s.loopA := rfl
@[simp] theorem State.setTdc_loopB (c : Nat) (x : ChanTdc) : (s.setTdc c x).loopB = s.loopB := rfl
@[simp] theorem State.setTdc_loops (c : Nat) (x : ChanTdc) : (s.setTdc c x).loops = s.loops := rfl
@[simp] theorem State.setTdc_hay (c : Nat) (x : ChanTdc) : (s.setTdc c x).hay = s.hay := rfl
@[simp] theorem State.setTdc_counters (c : Nat) (x : ChanTdc) : (s.setTdc c x).counters = s.counters := rfl
@[simp] theorem State.setTdc_free (c : Nat) (x : ChanTdc) : (s.setTdc c x).free = s.free := rfl

/-! ### setBlock -/

@[simp] theorem State.setBlock_pending (b : Nat) (x : Block) : (s.setBlock b x).pending = s.pending := rfl
@[simp] theorem State.setBlock_node (b : Nat) (x : Block) : (s.setBlock b x).node = s.node := rfl
@[simp] theorem State.setBlock_clock (b : Nat) (x : Block) : (s.setBlock b x).clock = s.clock := rfl
@[simp] theorem State.setBlock_fes (b : Nat) (x : Block) : (s.setBlock b x).fes = s.fes := rfl
@[simp] theorem State.setBlock_cells (b : Nat) (x : Block) : (s.setBlock b x).cells = s.cells := rfl
@[simp] theorem State.setBlock_tdcs (b : Nat) (x : Block) : (s.setBlock b x).tdcs = s.tdcs := rfl
@[simp] theorem State.setBlock_lanes (b : Nat) (x : Block) : (s.setBlock b x).lanes = s.lanes := rfl
@[simp] theorem State.setBlock_core (b : Nat) (x : Block) : (s.setBlock b x).core = s.core := rfl
@[simp] theorem State.setBlock_gmem (b : Nat) (x : Block) : (s.setBlock b x).gmem = s.gmem := rfl
@[simp] theorem State.setBlock_tables (b : Nat) (x : Block) : (s.setBlock b x).tables = s.tables := rfl
@[simp] theorem State.setBlock_ring (b : Nat) (x : Block) : (s.setBlock b x).ring = s.ring := rfl
@[simp] theorem State.setBlock_window (b : Nat) (x : Block) : (s.setBlock b x).window = s.window := rfl
@[simp] theorem State.setBlock_windowB (b : Nat) (x : Block) : (s.setBlock b x).windowB = s.windowB := rfl
@[simp] theorem State.setBlock_trig (b : Nat) (x : Block) : (s.setBlock b x).trig = s.trig := rfl
@[simp] theorem State.setBlock_balers (b : Nat) (x : Block) : (s.setBlock b x).balers = s.balers := rfl
@[simp] theorem State.setBlock_jobs (b : Nat) (x : Block) : (s.setBlock b x).jobs = s.jobs := rfl
@[simp] theorem State.setBlock_pcie (b : Nat) (x : Block) : (s.setBlock b x).pcie = s.pcie := rfl
@[simp] theorem State.setBlock_foda (b : Nat) (x : Block) : (s.setBlock b x).foda = s.foda := rfl
@[simp] theorem State.setBlock_time (b : Nat) (x : Block) : (s.setBlock b x).time = s.time := rfl
@[simp] theorem State.setBlock_tallies (b : Nat) (x : Block) : (s.setBlock b x).tallies = s.tallies := rfl
@[simp] theorem State.setBlock_red (b : Nat) (x : Block) : (s.setBlock b x).red = s.red := rfl
@[simp] theorem State.setBlock_mon (b : Nat) (x : Block) : (s.setBlock b x).mon = s.mon := rfl
@[simp] theorem State.setBlock_thermal (b : Nat) (x : Block) : (s.setBlock b x).thermal = s.thermal := rfl
@[simp] theorem State.setBlock_loopA (b : Nat) (x : Block) : (s.setBlock b x).loopA = s.loopA := rfl
@[simp] theorem State.setBlock_loopB (b : Nat) (x : Block) : (s.setBlock b x).loopB = s.loopB := rfl
@[simp] theorem State.setBlock_loops (b : Nat) (x : Block) : (s.setBlock b x).loops = s.loops := rfl
@[simp] theorem State.setBlock_hay (b : Nat) (x : Block) : (s.setBlock b x).hay = s.hay := rfl
@[simp] theorem State.setBlock_counters (b : Nat) (x : Block) : (s.setBlock b x).counters = s.counters := rfl
@[simp] theorem State.setBlock_free (b : Nat) (x : Block) : (s.setBlock b x).free = s.free := rfl

/-! ### setLane -/

@[simp] theorem State.setLane_pending (d : Nat) (h : Hub) (l : List LaneMsg) : (s.setLane d h l).pending = s.pending := rfl
@[simp] theorem State.setLane_node (d : Nat) (h : Hub) (l : List LaneMsg) : (s.setLane d h l).node = s.node := rfl
@[simp] theorem State.setLane_clock (d : Nat) (h : Hub) (l : List LaneMsg) : (s.setLane d h l).clock = s.clock := rfl
@[simp] theorem State.setLane_fes (d : Nat) (h : Hub) (l : List LaneMsg) : (s.setLane d h l).fes = s.fes := rfl
@[simp] theorem State.setLane_cells (d : Nat) (h : Hub) (l : List LaneMsg) : (s.setLane d h l).cells = s.cells := rfl
@[simp] theorem State.setLane_tdcs (d : Nat) (h : Hub) (l : List LaneMsg) : (s.setLane d h l).tdcs = s.tdcs := rfl
@[simp] theorem State.setLane_blocks (d : Nat) (h : Hub) (l : List LaneMsg) : (s.setLane d h l).blocks = s.blocks := rfl
@[simp] theorem State.setLane_core (d : Nat) (h : Hub) (l : List LaneMsg) : (s.setLane d h l).core = s.core := rfl
@[simp] theorem State.setLane_gmem (d : Nat) (h : Hub) (l : List LaneMsg) : (s.setLane d h l).gmem = s.gmem := rfl
@[simp] theorem State.setLane_tables (d : Nat) (h : Hub) (l : List LaneMsg) : (s.setLane d h l).tables = s.tables := rfl
@[simp] theorem State.setLane_ring (d : Nat) (h : Hub) (l : List LaneMsg) : (s.setLane d h l).ring = s.ring := rfl
@[simp] theorem State.setLane_window (d : Nat) (h : Hub) (l : List LaneMsg) : (s.setLane d h l).window = s.window := rfl
@[simp] theorem State.setLane_windowB (d : Nat) (h : Hub) (l : List LaneMsg) : (s.setLane d h l).windowB = s.windowB := rfl
@[simp] theorem State.setLane_trig (d : Nat) (h : Hub) (l : List LaneMsg) : (s.setLane d h l).trig = s.trig := rfl
@[simp] theorem State.setLane_balers (d : Nat) (h : Hub) (l : List LaneMsg) : (s.setLane d h l).balers = s.balers := rfl
@[simp] theorem State.setLane_jobs (d : Nat) (h : Hub) (l : List LaneMsg) : (s.setLane d h l).jobs = s.jobs := rfl
@[simp] theorem State.setLane_pcie (d : Nat) (h : Hub) (l : List LaneMsg) : (s.setLane d h l).pcie = s.pcie := rfl
@[simp] theorem State.setLane_foda (d : Nat) (h : Hub) (l : List LaneMsg) : (s.setLane d h l).foda = s.foda := rfl
@[simp] theorem State.setLane_time (d : Nat) (h : Hub) (l : List LaneMsg) : (s.setLane d h l).time = s.time := rfl
@[simp] theorem State.setLane_tallies (d : Nat) (h : Hub) (l : List LaneMsg) : (s.setLane d h l).tallies = s.tallies := rfl
@[simp] theorem State.setLane_red (d : Nat) (h : Hub) (l : List LaneMsg) : (s.setLane d h l).red = s.red := rfl
@[simp] theorem State.setLane_mon (d : Nat) (h : Hub) (l : List LaneMsg) : (s.setLane d h l).mon = s.mon := rfl
@[simp] theorem State.setLane_thermal (d : Nat) (h : Hub) (l : List LaneMsg) : (s.setLane d h l).thermal = s.thermal := rfl
@[simp] theorem State.setLane_loopA (d : Nat) (h : Hub) (l : List LaneMsg) : (s.setLane d h l).loopA = s.loopA := rfl
@[simp] theorem State.setLane_loopB (d : Nat) (h : Hub) (l : List LaneMsg) : (s.setLane d h l).loopB = s.loopB := rfl
@[simp] theorem State.setLane_loops (d : Nat) (h : Hub) (l : List LaneMsg) : (s.setLane d h l).loops = s.loops := rfl
@[simp] theorem State.setLane_hay (d : Nat) (h : Hub) (l : List LaneMsg) : (s.setLane d h l).hay = s.hay := rfl
@[simp] theorem State.setLane_counters (d : Nat) (h : Hub) (l : List LaneMsg) : (s.setLane d h l).counters = s.counters := rfl
@[simp] theorem State.setLane_free (d : Nat) (h : Hub) (l : List LaneMsg) : (s.setLane d h l).free = s.free := rfl

/-! ### modCore -/

@[simp] theorem State.modCore_pending (g : HubCore → HubCore) : (s.modCore g).pending = s.pending := rfl
@[simp] theorem State.modCore_node (g : HubCore → HubCore) : (s.modCore g).node = s.node := rfl
@[simp] theorem State.modCore_clock (g : HubCore → HubCore) : (s.modCore g).clock = s.clock := rfl
@[simp] theorem State.modCore_fes (g : HubCore → HubCore) : (s.modCore g).fes = s.fes := rfl
@[simp] theorem State.modCore_cells (g : HubCore → HubCore) : (s.modCore g).cells = s.cells := rfl
@[simp] theorem State.modCore_tdcs (g : HubCore → HubCore) : (s.modCore g).tdcs = s.tdcs := rfl
@[simp] theorem State.modCore_blocks (g : HubCore → HubCore) : (s.modCore g).blocks = s.blocks := rfl
@[simp] theorem State.modCore_lanes (g : HubCore → HubCore) : (s.modCore g).lanes = s.lanes := rfl
@[simp] theorem State.modCore_gmem (g : HubCore → HubCore) : (s.modCore g).gmem = s.gmem := rfl
@[simp] theorem State.modCore_tables (g : HubCore → HubCore) : (s.modCore g).tables = s.tables := rfl
@[simp] theorem State.modCore_ring (g : HubCore → HubCore) : (s.modCore g).ring = s.ring := rfl
@[simp] theorem State.modCore_window (g : HubCore → HubCore) : (s.modCore g).window = s.window := rfl
@[simp] theorem State.modCore_windowB (g : HubCore → HubCore) : (s.modCore g).windowB = s.windowB := rfl
@[simp] theorem State.modCore_trig (g : HubCore → HubCore) : (s.modCore g).trig = s.trig := rfl
@[simp] theorem State.modCore_balers (g : HubCore → HubCore) : (s.modCore g).balers = s.balers := rfl
@[simp] theorem State.modCore_jobs (g : HubCore → HubCore) : (s.modCore g).jobs = s.jobs := rfl
@[simp] theorem State.modCore_pcie (g : HubCore → HubCore) : (s.modCore g).pcie = s.pcie := rfl
@[simp] theorem State.modCore_foda (g : HubCore → HubCore) : (s.modCore g).foda = s.foda := rfl
@[simp] theorem State.modCore_time (g : HubCore → HubCore) : (s.modCore g).time = s.time := rfl
@[simp] theorem State.modCore_tallies (g : HubCore → HubCore) : (s.modCore g).tallies = s.tallies := rfl
@[simp] theorem State.modCore_red (g : HubCore → HubCore) : (s.modCore g).red = s.red := rfl
@[simp] theorem State.modCore_mon (g : HubCore → HubCore) : (s.modCore g).mon = s.mon := rfl
@[simp] theorem State.modCore_thermal (g : HubCore → HubCore) : (s.modCore g).thermal = s.thermal := rfl
@[simp] theorem State.modCore_loopA (g : HubCore → HubCore) : (s.modCore g).loopA = s.loopA := rfl
@[simp] theorem State.modCore_loopB (g : HubCore → HubCore) : (s.modCore g).loopB = s.loopB := rfl
@[simp] theorem State.modCore_loops (g : HubCore → HubCore) : (s.modCore g).loops = s.loops := rfl
@[simp] theorem State.modCore_hay (g : HubCore → HubCore) : (s.modCore g).hay = s.hay := rfl
@[simp] theorem State.modCore_counters (g : HubCore → HubCore) : (s.modCore g).counters = s.counters := rfl
@[simp] theorem State.modCore_free (g : HubCore → HubCore) : (s.modCore g).free = s.free := rfl

/-! ### setSorter -/

@[simp] theorem State.setSorter_pending (r : Nat) (x : Sorter) : (s.setSorter r x).pending = s.pending := rfl
@[simp] theorem State.setSorter_node (r : Nat) (x : Sorter) : (s.setSorter r x).node = s.node := rfl
@[simp] theorem State.setSorter_clock (r : Nat) (x : Sorter) : (s.setSorter r x).clock = s.clock := rfl
@[simp] theorem State.setSorter_fes (r : Nat) (x : Sorter) : (s.setSorter r x).fes = s.fes := rfl
@[simp] theorem State.setSorter_cells (r : Nat) (x : Sorter) : (s.setSorter r x).cells = s.cells := rfl
@[simp] theorem State.setSorter_tdcs (r : Nat) (x : Sorter) : (s.setSorter r x).tdcs = s.tdcs := rfl
@[simp] theorem State.setSorter_blocks (r : Nat) (x : Sorter) : (s.setSorter r x).blocks = s.blocks := rfl
@[simp] theorem State.setSorter_lanes (r : Nat) (x : Sorter) : (s.setSorter r x).lanes = s.lanes := rfl
@[simp] theorem State.setSorter_gmem (r : Nat) (x : Sorter) : (s.setSorter r x).gmem = s.gmem := rfl
@[simp] theorem State.setSorter_tables (r : Nat) (x : Sorter) : (s.setSorter r x).tables = s.tables := rfl
@[simp] theorem State.setSorter_ring (r : Nat) (x : Sorter) : (s.setSorter r x).ring = s.ring := rfl
@[simp] theorem State.setSorter_window (r : Nat) (x : Sorter) : (s.setSorter r x).window = s.window := rfl
@[simp] theorem State.setSorter_windowB (r : Nat) (x : Sorter) : (s.setSorter r x).windowB = s.windowB := rfl
@[simp] theorem State.setSorter_trig (r : Nat) (x : Sorter) : (s.setSorter r x).trig = s.trig := rfl
@[simp] theorem State.setSorter_balers (r : Nat) (x : Sorter) : (s.setSorter r x).balers = s.balers := rfl
@[simp] theorem State.setSorter_jobs (r : Nat) (x : Sorter) : (s.setSorter r x).jobs = s.jobs := rfl
@[simp] theorem State.setSorter_pcie (r : Nat) (x : Sorter) : (s.setSorter r x).pcie = s.pcie := rfl
@[simp] theorem State.setSorter_foda (r : Nat) (x : Sorter) : (s.setSorter r x).foda = s.foda := rfl
@[simp] theorem State.setSorter_time (r : Nat) (x : Sorter) : (s.setSorter r x).time = s.time := rfl
@[simp] theorem State.setSorter_tallies (r : Nat) (x : Sorter) : (s.setSorter r x).tallies = s.tallies := rfl
@[simp] theorem State.setSorter_red (r : Nat) (x : Sorter) : (s.setSorter r x).red = s.red := rfl
@[simp] theorem State.setSorter_mon (r : Nat) (x : Sorter) : (s.setSorter r x).mon = s.mon := rfl
@[simp] theorem State.setSorter_thermal (r : Nat) (x : Sorter) : (s.setSorter r x).thermal = s.thermal := rfl
@[simp] theorem State.setSorter_loopA (r : Nat) (x : Sorter) : (s.setSorter r x).loopA = s.loopA := rfl
@[simp] theorem State.setSorter_loopB (r : Nat) (x : Sorter) : (s.setSorter r x).loopB = s.loopB := rfl
@[simp] theorem State.setSorter_loops (r : Nat) (x : Sorter) : (s.setSorter r x).loops = s.loops := rfl
@[simp] theorem State.setSorter_hay (r : Nat) (x : Sorter) : (s.setSorter r x).hay = s.hay := rfl
@[simp] theorem State.setSorter_counters (r : Nat) (x : Sorter) : (s.setSorter r x).counters = s.counters := rfl
@[simp] theorem State.setSorter_free (r : Nat) (x : Sorter) : (s.setSorter r x).free = s.free := rfl

/-! ### setIngress -/

@[simp] theorem State.setIngress_pending (r : Nat) (l : List SRec) : (s.setIngress r l).pending = s.pending := rfl
@[simp] theorem State.setIngress_node (r : Nat) (l : List SRec) : (s.setIngress r l).node = s.node := rfl
@[simp] theorem State.setIngress_clock (r : Nat) (l : List SRec) : (s.setIngress r l).clock = s.clock := rfl
@[simp] theorem State.setIngress_fes (r : Nat) (l : List SRec) : (s.setIngress r l).fes = s.fes := rfl
@[simp] theorem State.setIngress_cells (r : Nat) (l : List SRec) : (s.setIngress r l).cells = s.cells := rfl
@[simp] theorem State.setIngress_tdcs (r : Nat) (l : List SRec) : (s.setIngress r l).tdcs = s.tdcs := rfl
@[simp] theorem State.setIngress_blocks (r : Nat) (l : List SRec) : (s.setIngress r l).blocks = s.blocks := rfl
@[simp] theorem State.setIngress_lanes (r : Nat) (l : List SRec) : (s.setIngress r l).lanes = s.lanes := rfl
@[simp] theorem State.setIngress_gmem (r : Nat) (l : List SRec) : (s.setIngress r l).gmem = s.gmem := rfl
@[simp] theorem State.setIngress_tables (r : Nat) (l : List SRec) : (s.setIngress r l).tables = s.tables := rfl
@[simp] theorem State.setIngress_ring (r : Nat) (l : List SRec) : (s.setIngress r l).ring = s.ring := rfl
@[simp] theorem State.setIngress_window (r : Nat) (l : List SRec) : (s.setIngress r l).window = s.window := rfl
@[simp] theorem State.setIngress_windowB (r : Nat) (l : List SRec) : (s.setIngress r l).windowB = s.windowB := rfl
@[simp] theorem State.setIngress_trig (r : Nat) (l : List SRec) : (s.setIngress r l).trig = s.trig := rfl
@[simp] theorem State.setIngress_balers (r : Nat) (l : List SRec) : (s.setIngress r l).balers = s.balers := rfl
@[simp] theorem State.setIngress_jobs (r : Nat) (l : List SRec) : (s.setIngress r l).jobs = s.jobs := rfl
@[simp] theorem State.setIngress_pcie (r : Nat) (l : List SRec) : (s.setIngress r l).pcie = s.pcie := rfl
@[simp] theorem State.setIngress_foda (r : Nat) (l : List SRec) : (s.setIngress r l).foda = s.foda := rfl
@[simp] theorem State.setIngress_time (r : Nat) (l : List SRec) : (s.setIngress r l).time = s.time := rfl
@[simp] theorem State.setIngress_tallies (r : Nat) (l : List SRec) : (s.setIngress r l).tallies = s.tallies := rfl
@[simp] theorem State.setIngress_red (r : Nat) (l : List SRec) : (s.setIngress r l).red = s.red := rfl
@[simp] theorem State.setIngress_mon (r : Nat) (l : List SRec) : (s.setIngress r l).mon = s.mon := rfl
@[simp] theorem State.setIngress_thermal (r : Nat) (l : List SRec) : (s.setIngress r l).thermal = s.thermal := rfl
@[simp] theorem State.setIngress_loopA (r : Nat) (l : List SRec) : (s.setIngress r l).loopA = s.loopA := rfl
@[simp] theorem State.setIngress_loopB (r : Nat) (l : List SRec) : (s.setIngress r l).loopB = s.loopB := rfl
@[simp] theorem State.setIngress_loops (r : Nat) (l : List SRec) : (s.setIngress r l).loops = s.loops := rfl
@[simp] theorem State.setIngress_hay (r : Nat) (l : List SRec) : (s.setIngress r l).hay = s.hay := rfl
@[simp] theorem State.setIngress_counters (r : Nat) (l : List SRec) : (s.setIngress r l).counters = s.counters := rfl
@[simp] theorem State.setIngress_free (r : Nat) (l : List SRec) : (s.setIngress r l).free = s.free := rfl

/-! ### setGleaner -/

@[simp] theorem State.setGleaner_pending (g : Nat) (x : Gleaner) : (s.setGleaner g x).pending = s.pending := rfl
@[simp] theorem State.setGleaner_node (g : Nat) (x : Gleaner) : (s.setGleaner g x).node = s.node := rfl
@[simp] theorem State.setGleaner_clock (g : Nat) (x : Gleaner) : (s.setGleaner g x).clock = s.clock := rfl
@[simp] theorem State.setGleaner_fes (g : Nat) (x : Gleaner) : (s.setGleaner g x).fes = s.fes := rfl
@[simp] theorem State.setGleaner_cells (g : Nat) (x : Gleaner) : (s.setGleaner g x).cells = s.cells := rfl
@[simp] theorem State.setGleaner_tdcs (g : Nat) (x : Gleaner) : (s.setGleaner g x).tdcs = s.tdcs := rfl
@[simp] theorem State.setGleaner_blocks (g : Nat) (x : Gleaner) : (s.setGleaner g x).blocks = s.blocks := rfl
@[simp] theorem State.setGleaner_lanes (g : Nat) (x : Gleaner) : (s.setGleaner g x).lanes = s.lanes := rfl
@[simp] theorem State.setGleaner_gmem (g : Nat) (x : Gleaner) : (s.setGleaner g x).gmem = s.gmem := rfl
@[simp] theorem State.setGleaner_tables (g : Nat) (x : Gleaner) : (s.setGleaner g x).tables = s.tables := rfl
@[simp] theorem State.setGleaner_ring (g : Nat) (x : Gleaner) : (s.setGleaner g x).ring = s.ring := rfl
@[simp] theorem State.setGleaner_window (g : Nat) (x : Gleaner) : (s.setGleaner g x).window = s.window := rfl
@[simp] theorem State.setGleaner_windowB (g : Nat) (x : Gleaner) : (s.setGleaner g x).windowB = s.windowB := rfl
@[simp] theorem State.setGleaner_trig (g : Nat) (x : Gleaner) : (s.setGleaner g x).trig = s.trig := rfl
@[simp] theorem State.setGleaner_balers (g : Nat) (x : Gleaner) : (s.setGleaner g x).balers = s.balers := rfl
@[simp] theorem State.setGleaner_jobs (g : Nat) (x : Gleaner) : (s.setGleaner g x).jobs = s.jobs := rfl
@[simp] theorem State.setGleaner_pcie (g : Nat) (x : Gleaner) : (s.setGleaner g x).pcie = s.pcie := rfl
@[simp] theorem State.setGleaner_foda (g : Nat) (x : Gleaner) : (s.setGleaner g x).foda = s.foda := rfl
@[simp] theorem State.setGleaner_time (g : Nat) (x : Gleaner) : (s.setGleaner g x).time = s.time := rfl
@[simp] theorem State.setGleaner_tallies (g : Nat) (x : Gleaner) : (s.setGleaner g x).tallies = s.tallies := rfl
@[simp] theorem State.setGleaner_red (g : Nat) (x : Gleaner) : (s.setGleaner g x).red = s.red := rfl
@[simp] theorem State.setGleaner_mon (g : Nat) (x : Gleaner) : (s.setGleaner g x).mon = s.mon := rfl
@[simp] theorem State.setGleaner_thermal (g : Nat) (x : Gleaner) : (s.setGleaner g x).thermal = s.thermal := rfl
@[simp] theorem State.setGleaner_loopA (g : Nat) (x : Gleaner) : (s.setGleaner g x).loopA = s.loopA := rfl
@[simp] theorem State.setGleaner_loopB (g : Nat) (x : Gleaner) : (s.setGleaner g x).loopB = s.loopB := rfl
@[simp] theorem State.setGleaner_loops (g : Nat) (x : Gleaner) : (s.setGleaner g x).loops = s.loops := rfl
@[simp] theorem State.setGleaner_hay (g : Nat) (x : Gleaner) : (s.setGleaner g x).hay = s.hay := rfl
@[simp] theorem State.setGleaner_counters (g : Nat) (x : Gleaner) : (s.setGleaner g x).counters = s.counters := rfl
@[simp] theorem State.setGleaner_free (g : Nat) (x : Gleaner) : (s.setGleaner g x).free = s.free := rfl

/-! ### setDeque -/

@[simp] theorem State.setDeque_pending (g : Nat) (l : List Sheaf) : (s.setDeque g l).pending = s.pending := rfl
@[simp] theorem State.setDeque_node (g : Nat) (l : List Sheaf) : (s.setDeque g l).node = s.node := rfl
@[simp] theorem State.setDeque_clock (g : Nat) (l : List Sheaf) : (s.setDeque g l).clock = s.clock := rfl
@[simp] theorem State.setDeque_fes (g : Nat) (l : List Sheaf) : (s.setDeque g l).fes = s.fes := rfl
@[simp] theorem State.setDeque_cells (g : Nat) (l : List Sheaf) : (s.setDeque g l).cells = s.cells := rfl
@[simp] theorem State.setDeque_tdcs (g : Nat) (l : List Sheaf) : (s.setDeque g l).tdcs = s.tdcs := rfl
@[simp] theorem State.setDeque_blocks (g : Nat) (l : List Sheaf) : (s.setDeque g l).blocks = s.blocks := rfl
@[simp] theorem State.setDeque_lanes (g : Nat) (l : List Sheaf) : (s.setDeque g l).lanes = s.lanes := rfl
@[simp] theorem State.setDeque_gmem (g : Nat) (l : List Sheaf) : (s.setDeque g l).gmem = s.gmem := rfl
@[simp] theorem State.setDeque_tables (g : Nat) (l : List Sheaf) : (s.setDeque g l).tables = s.tables := rfl
@[simp] theorem State.setDeque_ring (g : Nat) (l : List Sheaf) : (s.setDeque g l).ring = s.ring := rfl
@[simp] theorem State.setDeque_window (g : Nat) (l : List Sheaf) : (s.setDeque g l).window = s.window := rfl
@[simp] theorem State.setDeque_windowB (g : Nat) (l : List Sheaf) : (s.setDeque g l).windowB = s.windowB := rfl
@[simp] theorem State.setDeque_trig (g : Nat) (l : List Sheaf) : (s.setDeque g l).trig = s.trig := rfl
@[simp] theorem State.setDeque_balers (g : Nat) (l : List Sheaf) : (s.setDeque g l).balers = s.balers := rfl
@[simp] theorem State.setDeque_jobs (g : Nat) (l : List Sheaf) : (s.setDeque g l).jobs = s.jobs := rfl
@[simp] theorem State.setDeque_pcie (g : Nat) (l : List Sheaf) : (s.setDeque g l).pcie = s.pcie := rfl
@[simp] theorem State.setDeque_foda (g : Nat) (l : List Sheaf) : (s.setDeque g l).foda = s.foda := rfl
@[simp] theorem State.setDeque_time (g : Nat) (l : List Sheaf) : (s.setDeque g l).time = s.time := rfl
@[simp] theorem State.setDeque_tallies (g : Nat) (l : List Sheaf) : (s.setDeque g l).tallies = s.tallies := rfl
@[simp] theorem State.setDeque_red (g : Nat) (l : List Sheaf) : (s.setDeque g l).red = s.red := rfl
@[simp] theorem State.setDeque_mon (g : Nat) (l : List Sheaf) : (s.setDeque g l).mon = s.mon := rfl
@[simp] theorem State.setDeque_thermal (g : Nat) (l : List Sheaf) : (s.setDeque g l).thermal = s.thermal := rfl
@[simp] theorem State.setDeque_loopA (g : Nat) (l : List Sheaf) : (s.setDeque g l).loopA = s.loopA := rfl
@[simp] theorem State.setDeque_loopB (g : Nat) (l : List Sheaf) : (s.setDeque g l).loopB = s.loopB := rfl
@[simp] theorem State.setDeque_loops (g : Nat) (l : List Sheaf) : (s.setDeque g l).loops = s.loops := rfl
@[simp] theorem State.setDeque_hay (g : Nat) (l : List Sheaf) : (s.setDeque g l).hay = s.hay := rfl
@[simp] theorem State.setDeque_counters (g : Nat) (l : List Sheaf) : (s.setDeque g l).counters = s.counters := rfl
@[simp] theorem State.setDeque_free (g : Nat) (l : List Sheaf) : (s.setDeque g l).free = s.free := rfl

/-! ### setCring -/

@[simp] theorem State.setCring_pending (k : Nat) (r : CmdRing) : (s.setCring k r).pending = s.pending := rfl
@[simp] theorem State.setCring_node (k : Nat) (r : CmdRing) : (s.setCring k r).node = s.node := rfl
@[simp] theorem State.setCring_clock (k : Nat) (r : CmdRing) : (s.setCring k r).clock = s.clock := rfl
@[simp] theorem State.setCring_fes (k : Nat) (r : CmdRing) : (s.setCring k r).fes = s.fes := rfl
@[simp] theorem State.setCring_cells (k : Nat) (r : CmdRing) : (s.setCring k r).cells = s.cells := rfl
@[simp] theorem State.setCring_tdcs (k : Nat) (r : CmdRing) : (s.setCring k r).tdcs = s.tdcs := rfl
@[simp] theorem State.setCring_blocks (k : Nat) (r : CmdRing) : (s.setCring k r).blocks = s.blocks := rfl
@[simp] theorem State.setCring_lanes (k : Nat) (r : CmdRing) : (s.setCring k r).lanes = s.lanes := rfl
@[simp] theorem State.setCring_core (k : Nat) (r : CmdRing) : (s.setCring k r).core = s.core := rfl
@[simp] theorem State.setCring_gmem (k : Nat) (r : CmdRing) : (s.setCring k r).gmem = s.gmem := rfl
@[simp] theorem State.setCring_tables (k : Nat) (r : CmdRing) : (s.setCring k r).tables = s.tables := rfl
@[simp] theorem State.setCring_ring (k : Nat) (r : CmdRing) : (s.setCring k r).ring = s.ring := rfl
@[simp] theorem State.setCring_window (k : Nat) (r : CmdRing) : (s.setCring k r).window = s.window := rfl
@[simp] theorem State.setCring_windowB (k : Nat) (r : CmdRing) : (s.setCring k r).windowB = s.windowB := rfl
@[simp] theorem State.setCring_trig (k : Nat) (r : CmdRing) : (s.setCring k r).trig = s.trig := rfl
@[simp] theorem State.setCring_balers (k : Nat) (r : CmdRing) : (s.setCring k r).balers = s.balers := rfl
@[simp] theorem State.setCring_jobs (k : Nat) (r : CmdRing) : (s.setCring k r).jobs = s.jobs := rfl
@[simp] theorem State.setCring_foda (k : Nat) (r : CmdRing) : (s.setCring k r).foda = s.foda := rfl
@[simp] theorem State.setCring_time (k : Nat) (r : CmdRing) : (s.setCring k r).time = s.time := rfl
@[simp] theorem State.setCring_tallies (k : Nat) (r : CmdRing) : (s.setCring k r).tallies = s.tallies := rfl
@[simp] theorem State.setCring_red (k : Nat) (r : CmdRing) : (s.setCring k r).red = s.red := rfl
@[simp] theorem State.setCring_mon (k : Nat) (r : CmdRing) : (s.setCring k r).mon = s.mon := rfl
@[simp] theorem State.setCring_thermal (k : Nat) (r : CmdRing) : (s.setCring k r).thermal = s.thermal := rfl
@[simp] theorem State.setCring_loopA (k : Nat) (r : CmdRing) : (s.setCring k r).loopA = s.loopA := rfl
@[simp] theorem State.setCring_loopB (k : Nat) (r : CmdRing) : (s.setCring k r).loopB = s.loopB := rfl
@[simp] theorem State.setCring_loops (k : Nat) (r : CmdRing) : (s.setCring k r).loops = s.loops := rfl
@[simp] theorem State.setCring_hay (k : Nat) (r : CmdRing) : (s.setCring k r).hay = s.hay := rfl
@[simp] theorem State.setCring_counters (k : Nat) (r : CmdRing) : (s.setCring k r).counters = s.counters := rfl
@[simp] theorem State.setCring_free (k : Nat) (r : CmdRing) : (s.setCring k r).free = s.free := rfl

/-! ### setDring -/

@[simp] theorem State.setDring_pending (k : Nat) (r : DataRing) : (s.setDring k r).pending = s.pending := rfl
@[simp] theorem State.setDring_node (k : Nat) (r : DataRing) : (s.setDring k r).node = s.node := rfl
@[simp] theorem State.setDring_clock (k : Nat) (r : DataRing) : (s.setDring k r).clock = s.clock := rfl
@[simp] theorem State.setDring_fes (k : Nat) (r : DataRing) : (s.setDring k r).fes = s.fes := rfl
@[simp] theorem State.setDring_cells (k : Nat) (r : DataRing) : (s.setDring k r).cells = s.cells := rfl
@[simp] theorem State.setDring_tdcs (k : Nat) (r : DataRing) : (s.setDring k r).tdcs = s.tdcs := rfl
@[simp] theorem State.setDring_blocks (k : Nat) (r : DataRing) : (s.setDring k r).blocks = s.blocks := rfl
@[simp] theorem State.setDring_lanes (k : Nat) (r : DataRing) : (s.setDring k r).lanes = s.lanes := rfl
@[simp] theorem State.setDring_core (k : Nat) (r : DataRing) : (s.setDring k r).core = s.core := rfl
@[simp] theorem State.setDring_gmem (k : Nat) (r : DataRing) : (s.setDring k r).gmem = s.gmem := rfl
@[simp] theorem State.setDring_tables (k : Nat) (r : DataRing) : (s.setDring k r).tables = s.tables := rfl
@[simp] theorem State.setDring_ring (k : Nat) (r : DataRing) : (s.setDring k r).ring = s.ring := rfl
@[simp] theorem State.setDring_window (k : Nat) (r : DataRing) : (s.setDring k r).window = s.window := rfl
@[simp] theorem State.setDring_windowB (k : Nat) (r : DataRing) : (s.setDring k r).windowB = s.windowB := rfl
@[simp] theorem State.setDring_trig (k : Nat) (r : DataRing) : (s.setDring k r).trig = s.trig := rfl
@[simp] theorem State.setDring_balers (k : Nat) (r : DataRing) : (s.setDring k r).balers = s.balers := rfl
@[simp] theorem State.setDring_jobs (k : Nat) (r : DataRing) : (s.setDring k r).jobs = s.jobs := rfl
@[simp] theorem State.setDring_foda (k : Nat) (r : DataRing) : (s.setDring k r).foda = s.foda := rfl
@[simp] theorem State.setDring_time (k : Nat) (r : DataRing) : (s.setDring k r).time = s.time := rfl
@[simp] theorem State.setDring_tallies (k : Nat) (r : DataRing) : (s.setDring k r).tallies = s.tallies := rfl
@[simp] theorem State.setDring_red (k : Nat) (r : DataRing) : (s.setDring k r).red = s.red := rfl
@[simp] theorem State.setDring_mon (k : Nat) (r : DataRing) : (s.setDring k r).mon = s.mon := rfl
@[simp] theorem State.setDring_thermal (k : Nat) (r : DataRing) : (s.setDring k r).thermal = s.thermal := rfl
@[simp] theorem State.setDring_loopA (k : Nat) (r : DataRing) : (s.setDring k r).loopA = s.loopA := rfl
@[simp] theorem State.setDring_loopB (k : Nat) (r : DataRing) : (s.setDring k r).loopB = s.loopB := rfl
@[simp] theorem State.setDring_loops (k : Nat) (r : DataRing) : (s.setDring k r).loops = s.loops := rfl
@[simp] theorem State.setDring_hay (k : Nat) (r : DataRing) : (s.setDring k r).hay = s.hay := rfl
@[simp] theorem State.setDring_counters (k : Nat) (r : DataRing) : (s.setDring k r).counters = s.counters := rfl
@[simp] theorem State.setDring_free (k : Nat) (r : DataRing) : (s.setDring k r).free = s.free := rfl

/-! ### setEp -/

@[simp] theorem State.setEp_pending (h : Hub) (e : Endpoint) : (s.setEp h e).pending = s.pending := by cases h <;> rfl
@[simp] theorem State.setEp_node (h : Hub) (e : Endpoint) : (s.setEp h e).node = s.node := by cases h <;> rfl
@[simp] theorem State.setEp_clock (h : Hub) (e : Endpoint) : (s.setEp h e).clock = s.clock := by cases h <;> rfl
@[simp] theorem State.setEp_fes (h : Hub) (e : Endpoint) : (s.setEp h e).fes = s.fes := by cases h <;> rfl
@[simp] theorem State.setEp_cells (h : Hub) (e : Endpoint) : (s.setEp h e).cells = s.cells := by cases h <;> rfl
@[simp] theorem State.setEp_tdcs (h : Hub) (e : Endpoint) : (s.setEp h e).tdcs = s.tdcs := by cases h <;> rfl
@[simp] theorem State.setEp_blocks (h : Hub) (e : Endpoint) : (s.setEp h e).blocks = s.blocks := by cases h <;> rfl
@[simp] theorem State.setEp_lanes (h : Hub) (e : Endpoint) : (s.setEp h e).lanes = s.lanes := by cases h <;> rfl
@[simp] theorem State.setEp_core (h : Hub) (e : Endpoint) : (s.setEp h e).core = s.core := by cases h <;> rfl
@[simp] theorem State.setEp_gmem (h : Hub) (e : Endpoint) : (s.setEp h e).gmem = s.gmem := by cases h <;> rfl
@[simp] theorem State.setEp_tables (h : Hub) (e : Endpoint) : (s.setEp h e).tables = s.tables := by cases h <;> rfl
@[simp] theorem State.setEp_ring (h : Hub) (e : Endpoint) : (s.setEp h e).ring = s.ring := by cases h <;> rfl
@[simp] theorem State.setEp_window (h : Hub) (e : Endpoint) : (s.setEp h e).window = s.window := by cases h <;> rfl
@[simp] theorem State.setEp_windowB (h : Hub) (e : Endpoint) : (s.setEp h e).windowB = s.windowB := by cases h <;> rfl
@[simp] theorem State.setEp_trig (h : Hub) (e : Endpoint) : (s.setEp h e).trig = s.trig := by cases h <;> rfl
@[simp] theorem State.setEp_balers (h : Hub) (e : Endpoint) : (s.setEp h e).balers = s.balers := by cases h <;> rfl
@[simp] theorem State.setEp_jobs (h : Hub) (e : Endpoint) : (s.setEp h e).jobs = s.jobs := by cases h <;> rfl
@[simp] theorem State.setEp_foda (h : Hub) (e : Endpoint) : (s.setEp h e).foda = s.foda := by cases h <;> rfl
@[simp] theorem State.setEp_time (h : Hub) (e : Endpoint) : (s.setEp h e).time = s.time := by cases h <;> rfl
@[simp] theorem State.setEp_tallies (h : Hub) (e : Endpoint) : (s.setEp h e).tallies = s.tallies := by cases h <;> rfl
@[simp] theorem State.setEp_red (h : Hub) (e : Endpoint) : (s.setEp h e).red = s.red := by cases h <;> rfl
@[simp] theorem State.setEp_mon (h : Hub) (e : Endpoint) : (s.setEp h e).mon = s.mon := by cases h <;> rfl
@[simp] theorem State.setEp_thermal (h : Hub) (e : Endpoint) : (s.setEp h e).thermal = s.thermal := by cases h <;> rfl
@[simp] theorem State.setEp_loopA (h : Hub) (e : Endpoint) : (s.setEp h e).loopA = s.loopA := by cases h <;> rfl
@[simp] theorem State.setEp_loopB (h : Hub) (e : Endpoint) : (s.setEp h e).loopB = s.loopB := by cases h <;> rfl
@[simp] theorem State.setEp_loops (h : Hub) (e : Endpoint) : (s.setEp h e).loops = s.loops := by cases h <;> rfl
@[simp] theorem State.setEp_hay (h : Hub) (e : Endpoint) : (s.setEp h e).hay = s.hay := by cases h <;> rfl
@[simp] theorem State.setEp_counters (h : Hub) (e : Endpoint) : (s.setEp h e).counters = s.counters := by cases h <;> rfl
@[simp] theorem State.setEp_free (h : Hub) (e : Endpoint) : (s.setEp h e).free = s.free := by cases h <;> rfl

/-! ### setPort -/

@[simp] theorem State.setPort_pending (p : Nat) (x : Port) : (s.setPort p x).pending = s.pending := rfl
@[simp] theorem State.setPort_node (p : Nat) (x : Port) : (s.setPort p x).node = s.node := rfl
@[simp] theorem State.setPort_clock (p : Nat) (x : Port) : (s.setPort p x).clock = s.clock := rfl
@[simp] theorem State.setPort_fes (p : Nat) (x : Port) : (s.setPort p x).fes = s.fes := rfl
@[simp] theorem State.setPort_cells (p : Nat) (x : Port) : (s.setPort p x).cells = s.cells := rfl
@[simp] theorem State.setPort_tdcs (p : Nat) (x : Port) : (s.setPort p x).tdcs = s.tdcs := rfl
@[simp] theorem State.setPort_blocks (p : Nat) (x : Port) : (s.setPort p x).blocks = s.blocks := rfl
@[simp] theorem State.setPort_lanes (p : Nat) (x : Port) : (s.setPort p x).lanes = s.lanes := rfl
@[simp] theorem State.setPort_core (p : Nat) (x : Port) : (s.setPort p x).core = s.core := rfl
@[simp] theorem State.setPort_gmem (p : Nat) (x : Port) : (s.setPort p x).gmem = s.gmem := rfl
@[simp] theorem State.setPort_tables (p : Nat) (x : Port) : (s.setPort p x).tables = s.tables := rfl
@[simp] theorem State.setPort_ring (p : Nat) (x : Port) : (s.setPort p x).ring = s.ring := rfl
@[simp] theorem State.setPort_window (p : Nat) (x : Port) : (s.setPort p x).window = s.window := rfl
@[simp] theorem State.setPort_windowB (p : Nat) (x : Port) : (s.setPort p x).windowB = s.windowB := rfl
@[simp] theorem State.setPort_trig (p : Nat) (x : Port) : (s.setPort p x).trig = s.trig := rfl
@[simp] theorem State.setPort_balers (p : Nat) (x : Port) : (s.setPort p x).balers = s.balers := rfl
@[simp] theorem State.setPort_jobs (p : Nat) (x : Port) : (s.setPort p x).jobs = s.jobs := rfl
@[simp] theorem State.setPort_pcie (p : Nat) (x : Port) : (s.setPort p x).pcie = s.pcie := rfl
@[simp] theorem State.setPort_time (p : Nat) (x : Port) : (s.setPort p x).time = s.time := rfl
@[simp] theorem State.setPort_tallies (p : Nat) (x : Port) : (s.setPort p x).tallies = s.tallies := rfl
@[simp] theorem State.setPort_red (p : Nat) (x : Port) : (s.setPort p x).red = s.red := rfl
@[simp] theorem State.setPort_mon (p : Nat) (x : Port) : (s.setPort p x).mon = s.mon := rfl
@[simp] theorem State.setPort_thermal (p : Nat) (x : Port) : (s.setPort p x).thermal = s.thermal := rfl
@[simp] theorem State.setPort_loopA (p : Nat) (x : Port) : (s.setPort p x).loopA = s.loopA := rfl
@[simp] theorem State.setPort_loopB (p : Nat) (x : Port) : (s.setPort p x).loopB = s.loopB := rfl
@[simp] theorem State.setPort_loops (p : Nat) (x : Port) : (s.setPort p x).loops = s.loops := rfl
@[simp] theorem State.setPort_hay (p : Nat) (x : Port) : (s.setPort p x).hay = s.hay := rfl
@[simp] theorem State.setPort_counters (p : Nat) (x : Port) : (s.setPort p x).counters = s.counters := rfl
@[simp] theorem State.setPort_free (p : Nat) (x : Port) : (s.setPort p x).free = s.free := rfl

/-! ### setGen -/

@[simp] theorem State.setGen_pending (k : Nat) (g : ToutGen) : (s.setGen k g).pending = s.pending := rfl
@[simp] theorem State.setGen_node (k : Nat) (g : ToutGen) : (s.setGen k g).node = s.node := rfl
@[simp] theorem State.setGen_clock (k : Nat) (g : ToutGen) : (s.setGen k g).clock = s.clock := rfl
@[simp] theorem State.setGen_fes (k : Nat) (g : ToutGen) : (s.setGen k g).fes = s.fes := rfl
@[simp] theorem State.setGen_cells (k : Nat) (g : ToutGen) : (s.setGen k g).cells = s.cells := rfl
@[simp] theorem State.setGen_tdcs (k : Nat) (g : ToutGen) : (s.setGen k g).tdcs = s.tdcs := rfl
@[simp] theorem State.setGen_blocks (k : Nat) (g : ToutGen) : (s.setGen k g).blocks = s.blocks := rfl
@[simp] theorem State.setGen_lanes (k : Nat) (g : ToutGen) : (s.setGen k g).lanes = s.lanes := rfl
@[simp] theorem State.setGen_core (k : Nat) (g : ToutGen) : (s.setGen k g).core = s.core := rfl
@[simp] theorem State.setGen_gmem (k : Nat) (g : ToutGen) : (s.setGen k g).gmem = s.gmem := rfl
@[simp] theorem State.setGen_tables (k : Nat) (g : ToutGen) : (s.setGen k g).tables = s.tables := rfl
@[simp] theorem State.setGen_ring (k : Nat) (g : ToutGen) : (s.setGen k g).ring = s.ring := rfl
@[simp] theorem State.setGen_window (k : Nat) (g : ToutGen) : (s.setGen k g).window = s.window := rfl
@[simp] theorem State.setGen_windowB (k : Nat) (g : ToutGen) : (s.setGen k g).windowB = s.windowB := rfl
@[simp] theorem State.setGen_trig (k : Nat) (g : ToutGen) : (s.setGen k g).trig = s.trig := rfl
@[simp] theorem State.setGen_balers (k : Nat) (g : ToutGen) : (s.setGen k g).balers = s.balers := rfl
@[simp] theorem State.setGen_jobs (k : Nat) (g : ToutGen) : (s.setGen k g).jobs = s.jobs := rfl
@[simp] theorem State.setGen_pcie (k : Nat) (g : ToutGen) : (s.setGen k g).pcie = s.pcie := rfl
@[simp] theorem State.setGen_foda (k : Nat) (g : ToutGen) : (s.setGen k g).foda = s.foda := rfl
@[simp] theorem State.setGen_tallies (k : Nat) (g : ToutGen) : (s.setGen k g).tallies = s.tallies := rfl
@[simp] theorem State.setGen_red (k : Nat) (g : ToutGen) : (s.setGen k g).red = s.red := rfl
@[simp] theorem State.setGen_mon (k : Nat) (g : ToutGen) : (s.setGen k g).mon = s.mon := rfl
@[simp] theorem State.setGen_thermal (k : Nat) (g : ToutGen) : (s.setGen k g).thermal = s.thermal := rfl
@[simp] theorem State.setGen_loopA (k : Nat) (g : ToutGen) : (s.setGen k g).loopA = s.loopA := rfl
@[simp] theorem State.setGen_loopB (k : Nat) (g : ToutGen) : (s.setGen k g).loopB = s.loopB := rfl
@[simp] theorem State.setGen_loops (k : Nat) (g : ToutGen) : (s.setGen k g).loops = s.loops := rfl
@[simp] theorem State.setGen_hay (k : Nat) (g : ToutGen) : (s.setGen k g).hay = s.hay := rfl
@[simp] theorem State.setGen_counters (k : Nat) (g : ToutGen) : (s.setGen k g).counters = s.counters := rfl
@[simp] theorem State.setGen_free (k : Nat) (g : ToutGen) : (s.setGen k g).free = s.free := rfl

/-! ### setTally -/

@[simp] theorem State.setTally_pending (u : Nat) (x : Tally) : (s.setTally u x).pending = s.pending := rfl
@[simp] theorem State.setTally_node (u : Nat) (x : Tally) : (s.setTally u x).node = s.node := rfl
@[simp] theorem State.setTally_clock (u : Nat) (x : Tally) : (s.setTally u x).clock = s.clock := rfl
@[simp] theorem State.setTally_fes (u : Nat) (x : Tally) : (s.setTally u x).fes = s.fes := rfl
@[simp] theorem State.setTally_cells (u : Nat) (x : Tally) : (s.setTally u x).cells = s.cells := rfl
@[simp] theorem State.setTally_tdcs (u : Nat) (x : Tally) : (s.setTally u x).tdcs = s.tdcs := rfl
@[simp] theorem State.setTally_blocks (u : Nat) (x : Tally) : (s.setTally u x).blocks = s.blocks := rfl
@[simp] theorem State.setTally_lanes (u : Nat) (x : Tally) : (s.setTally u x).lanes = s.lanes := rfl
@[simp] theorem State.setTally_core (u : Nat) (x : Tally) : (s.setTally u x).core = s.core := rfl
@[simp] theorem State.setTally_gmem (u : Nat) (x : Tally) : (s.setTally u x).gmem = s.gmem := rfl
@[simp] theorem State.setTally_tables (u : Nat) (x : Tally) : (s.setTally u x).tables = s.tables := rfl
@[simp] theorem State.setTally_ring (u : Nat) (x : Tally) : (s.setTally u x).ring = s.ring := rfl
@[simp] theorem State.setTally_window (u : Nat) (x : Tally) : (s.setTally u x).window = s.window := rfl
@[simp] theorem State.setTally_windowB (u : Nat) (x : Tally) : (s.setTally u x).windowB = s.windowB := rfl
@[simp] theorem State.setTally_trig (u : Nat) (x : Tally) : (s.setTally u x).trig = s.trig := rfl
@[simp] theorem State.setTally_balers (u : Nat) (x : Tally) : (s.setTally u x).balers = s.balers := rfl
@[simp] theorem State.setTally_jobs (u : Nat) (x : Tally) : (s.setTally u x).jobs = s.jobs := rfl
@[simp] theorem State.setTally_pcie (u : Nat) (x : Tally) : (s.setTally u x).pcie = s.pcie := rfl
@[simp] theorem State.setTally_foda (u : Nat) (x : Tally) : (s.setTally u x).foda = s.foda := rfl
@[simp] theorem State.setTally_time (u : Nat) (x : Tally) : (s.setTally u x).time = s.time := rfl
@[simp] theorem State.setTally_red (u : Nat) (x : Tally) : (s.setTally u x).red = s.red := rfl
@[simp] theorem State.setTally_mon (u : Nat) (x : Tally) : (s.setTally u x).mon = s.mon := rfl
@[simp] theorem State.setTally_thermal (u : Nat) (x : Tally) : (s.setTally u x).thermal = s.thermal := rfl
@[simp] theorem State.setTally_loopA (u : Nat) (x : Tally) : (s.setTally u x).loopA = s.loopA := rfl
@[simp] theorem State.setTally_loopB (u : Nat) (x : Tally) : (s.setTally u x).loopB = s.loopB := rfl
@[simp] theorem State.setTally_loops (u : Nat) (x : Tally) : (s.setTally u x).loops = s.loops := rfl
@[simp] theorem State.setTally_hay (u : Nat) (x : Tally) : (s.setTally u x).hay = s.hay := rfl
@[simp] theorem State.setTally_counters (u : Nat) (x : Tally) : (s.setTally u x).counters = s.counters := rfl
@[simp] theorem State.setTally_free (u : Nat) (x : Tally) : (s.setTally u x).free = s.free := rfl

/-! ### setLoop -/

@[simp] theorem State.setLoop_pending (n : Nat) (l : LoopSt) : (s.setLoop n l).pending = s.pending := rfl
@[simp] theorem State.setLoop_node (n : Nat) (l : LoopSt) : (s.setLoop n l).node = s.node := rfl
@[simp] theorem State.setLoop_clock (n : Nat) (l : LoopSt) : (s.setLoop n l).clock = s.clock := rfl
@[simp] theorem State.setLoop_fes (n : Nat) (l : LoopSt) : (s.setLoop n l).fes = s.fes := rfl
@[simp] theorem State.setLoop_cells (n : Nat) (l : LoopSt) : (s.setLoop n l).cells = s.cells := rfl
@[simp] theorem State.setLoop_tdcs (n : Nat) (l : LoopSt) : (s.setLoop n l).tdcs = s.tdcs := rfl
@[simp] theorem State.setLoop_blocks (n : Nat) (l : LoopSt) : (s.setLoop n l).blocks = s.blocks := rfl
@[simp] theorem State.setLoop_lanes (n : Nat) (l : LoopSt) : (s.setLoop n l).lanes = s.lanes := rfl
@[simp] theorem State.setLoop_core (n : Nat) (l : LoopSt) : (s.setLoop n l).core = s.core := rfl
@[simp] theorem State.setLoop_gmem (n : Nat) (l : LoopSt) : (s.setLoop n l).gmem = s.gmem := rfl
@[simp] theorem State.setLoop_tables (n : Nat) (l : LoopSt) : (s.setLoop n l).tables = s.tables := rfl
@[simp] theorem State.setLoop_ring (n : Nat) (l : LoopSt) : (s.setLoop n l).ring = s.ring := rfl
@[simp] theorem State.setLoop_window (n : Nat) (l : LoopSt) : (s.setLoop n l).window = s.window := rfl
@[simp] theorem State.setLoop_windowB (n : Nat) (l : LoopSt) : (s.setLoop n l).windowB = s.windowB := rfl
@[simp] theorem State.setLoop_trig (n : Nat) (l : LoopSt) : (s.setLoop n l).trig = s.trig := rfl
@[simp] theorem State.setLoop_balers (n : Nat) (l : LoopSt) : (s.setLoop n l).balers = s.balers := rfl
@[simp] theorem State.setLoop_jobs (n : Nat) (l : LoopSt) : (s.setLoop n l).jobs = s.jobs := rfl
@[simp] theorem State.setLoop_pcie (n : Nat) (l : LoopSt) : (s.setLoop n l).pcie = s.pcie := rfl
@[simp] theorem State.setLoop_foda (n : Nat) (l : LoopSt) : (s.setLoop n l).foda = s.foda := rfl
@[simp] theorem State.setLoop_time (n : Nat) (l : LoopSt) : (s.setLoop n l).time = s.time := rfl
@[simp] theorem State.setLoop_tallies (n : Nat) (l : LoopSt) : (s.setLoop n l).tallies = s.tallies := rfl
@[simp] theorem State.setLoop_red (n : Nat) (l : LoopSt) : (s.setLoop n l).red = s.red := rfl
@[simp] theorem State.setLoop_mon (n : Nat) (l : LoopSt) : (s.setLoop n l).mon = s.mon := rfl
@[simp] theorem State.setLoop_thermal (n : Nat) (l : LoopSt) : (s.setLoop n l).thermal = s.thermal := rfl
@[simp] theorem State.setLoop_loopA (n : Nat) (l : LoopSt) : (s.setLoop n l).loopA = s.loopA := rfl
@[simp] theorem State.setLoop_loopB (n : Nat) (l : LoopSt) : (s.setLoop n l).loopB = s.loopB := rfl
@[simp] theorem State.setLoop_hay (n : Nat) (l : LoopSt) : (s.setLoop n l).hay = s.hay := rfl
@[simp] theorem State.setLoop_counters (n : Nat) (l : LoopSt) : (s.setLoop n l).counters = s.counters := rfl
@[simp] theorem State.setLoop_free (n : Nat) (l : LoopSt) : (s.setLoop n l).free = s.free := rfl

/-! ### setBaler -/

@[simp] theorem State.setBaler_pending (b : Nat) (x : Baler) : (s.setBaler b x).pending = s.pending := rfl
@[simp] theorem State.setBaler_node (b : Nat) (x : Baler) : (s.setBaler b x).node = s.node := rfl
@[simp] theorem State.setBaler_clock (b : Nat) (x : Baler) : (s.setBaler b x).clock = s.clock := rfl
@[simp] theorem State.setBaler_fes (b : Nat) (x : Baler) : (s.setBaler b x).fes = s.fes := rfl
@[simp] theorem State.setBaler_cells (b : Nat) (x : Baler) : (s.setBaler b x).cells = s.cells := rfl
@[simp] theorem State.setBaler_tdcs (b : Nat) (x : Baler) : (s.setBaler b x).tdcs = s.tdcs := rfl
@[simp] theorem State.setBaler_blocks (b : Nat) (x : Baler) : (s.setBaler b x).blocks = s.blocks := rfl
@[simp] theorem State.setBaler_lanes (b : Nat) (x : Baler) : (s.setBaler b x).lanes = s.lanes := rfl
@[simp] theorem State.setBaler_core (b : Nat) (x : Baler) : (s.setBaler b x).core = s.core := rfl
@[simp] theorem State.setBaler_gmem (b : Nat) (x : Baler) : (s.setBaler b x).gmem = s.gmem := rfl
@[simp] theorem State.setBaler_tables (b : Nat) (x : Baler) : (s.setBaler b x).tables = s.tables := rfl
@[simp] theorem State.setBaler_ring (b : Nat) (x : Baler) : (s.setBaler b x).ring = s.ring := rfl
@[simp] theorem State.setBaler_window (b : Nat) (x : Baler) : (s.setBaler b x).window = s.window := rfl
@[simp] theorem State.setBaler_windowB (b : Nat) (x : Baler) : (s.setBaler b x).windowB = s.windowB := rfl
@[simp] theorem State.setBaler_trig (b : Nat) (x : Baler) : (s.setBaler b x).trig = s.trig := rfl
@[simp] theorem State.setBaler_jobs (b : Nat) (x : Baler) : (s.setBaler b x).jobs = s.jobs := rfl
@[simp] theorem State.setBaler_pcie (b : Nat) (x : Baler) : (s.setBaler b x).pcie = s.pcie := rfl
@[simp] theorem State.setBaler_foda (b : Nat) (x : Baler) : (s.setBaler b x).foda = s.foda := rfl
@[simp] theorem State.setBaler_time (b : Nat) (x : Baler) : (s.setBaler b x).time = s.time := rfl
@[simp] theorem State.setBaler_tallies (b : Nat) (x : Baler) : (s.setBaler b x).tallies = s.tallies := rfl
@[simp] theorem State.setBaler_red (b : Nat) (x : Baler) : (s.setBaler b x).red = s.red := rfl
@[simp] theorem State.setBaler_mon (b : Nat) (x : Baler) : (s.setBaler b x).mon = s.mon := rfl
@[simp] theorem State.setBaler_thermal (b : Nat) (x : Baler) : (s.setBaler b x).thermal = s.thermal := rfl
@[simp] theorem State.setBaler_loopA (b : Nat) (x : Baler) : (s.setBaler b x).loopA = s.loopA := rfl
@[simp] theorem State.setBaler_loopB (b : Nat) (x : Baler) : (s.setBaler b x).loopB = s.loopB := rfl
@[simp] theorem State.setBaler_loops (b : Nat) (x : Baler) : (s.setBaler b x).loops = s.loops := rfl
@[simp] theorem State.setBaler_hay (b : Nat) (x : Baler) : (s.setBaler b x).hay = s.hay := rfl
@[simp] theorem State.setBaler_counters (b : Nat) (x : Baler) : (s.setBaler b x).counters = s.counters := rfl
@[simp] theorem State.setBaler_free (b : Nat) (x : Baler) : (s.setBaler b x).free = s.free := rfl

/-! ### setHubRed -/

@[simp] theorem State.setHubRed_pending (h : Hub) (x : HubRed) : (s.setHubRed h x).pending = s.pending := by cases h <;> rfl
@[simp] theorem State.setHubRed_node (h : Hub) (x : HubRed) : (s.setHubRed h x).node = s.node := by cases h <;> rfl
@[simp] theorem State.setHubRed_clock (h : Hub) (x : HubRed) : (s.setHubRed h x).clock = s.clock := by cases h <;> rfl
@[simp] theorem State.setHubRed_fes (h : Hub) (x : HubRed) : (s.setHubRed h x).fes = s.fes := by cases h <;> rfl
@[simp] theorem State.setHubRed_cells (h : Hub) (x : HubRed) : (s.setHubRed h x).cells = s.cells := by cases h <;> rfl
@[simp] theorem State.setHubRed_tdcs (h : Hub) (x : HubRed) : (s.setHubRed h x).tdcs = s.tdcs := by cases h <;> rfl
@[simp] theorem State.setHubRed_blocks (h : Hub) (x : HubRed) : (s.setHubRed h x).blocks = s.blocks := by cases h <;> rfl
@[simp] theorem State.setHubRed_lanes (h : Hub) (x : HubRed) : (s.setHubRed h x).lanes = s.lanes := by cases h <;> rfl
@[simp] theorem State.setHubRed_core (h : Hub) (x : HubRed) : (s.setHubRed h x).core = s.core := by cases h <;> rfl
@[simp] theorem State.setHubRed_gmem (h : Hub) (x : HubRed) : (s.setHubRed h x).gmem = s.gmem := by cases h <;> rfl
@[simp] theorem State.setHubRed_tables (h : Hub) (x : HubRed) : (s.setHubRed h x).tables = s.tables := by cases h <;> rfl
@[simp] theorem State.setHubRed_ring (h : Hub) (x : HubRed) : (s.setHubRed h x).ring = s.ring := by cases h <;> rfl
@[simp] theorem State.setHubRed_window (h : Hub) (x : HubRed) : (s.setHubRed h x).window = s.window := by cases h <;> rfl
@[simp] theorem State.setHubRed_windowB (h : Hub) (x : HubRed) : (s.setHubRed h x).windowB = s.windowB := by cases h <;> rfl
@[simp] theorem State.setHubRed_trig (h : Hub) (x : HubRed) : (s.setHubRed h x).trig = s.trig := by cases h <;> rfl
@[simp] theorem State.setHubRed_balers (h : Hub) (x : HubRed) : (s.setHubRed h x).balers = s.balers := by cases h <;> rfl
@[simp] theorem State.setHubRed_jobs (h : Hub) (x : HubRed) : (s.setHubRed h x).jobs = s.jobs := by cases h <;> rfl
@[simp] theorem State.setHubRed_pcie (h : Hub) (x : HubRed) : (s.setHubRed h x).pcie = s.pcie := by cases h <;> rfl
@[simp] theorem State.setHubRed_foda (h : Hub) (x : HubRed) : (s.setHubRed h x).foda = s.foda := by cases h <;> rfl
@[simp] theorem State.setHubRed_time (h : Hub) (x : HubRed) : (s.setHubRed h x).time = s.time := by cases h <;> rfl
@[simp] theorem State.setHubRed_tallies (h : Hub) (x : HubRed) : (s.setHubRed h x).tallies = s.tallies := by cases h <;> rfl
@[simp] theorem State.setHubRed_mon (h : Hub) (x : HubRed) : (s.setHubRed h x).mon = s.mon := by cases h <;> rfl
@[simp] theorem State.setHubRed_thermal (h : Hub) (x : HubRed) : (s.setHubRed h x).thermal = s.thermal := by cases h <;> rfl
@[simp] theorem State.setHubRed_loopA (h : Hub) (x : HubRed) : (s.setHubRed h x).loopA = s.loopA := by cases h <;> rfl
@[simp] theorem State.setHubRed_loopB (h : Hub) (x : HubRed) : (s.setHubRed h x).loopB = s.loopB := by cases h <;> rfl
@[simp] theorem State.setHubRed_loops (h : Hub) (x : HubRed) : (s.setHubRed h x).loops = s.loops := by cases h <;> rfl
@[simp] theorem State.setHubRed_hay (h : Hub) (x : HubRed) : (s.setHubRed h x).hay = s.hay := by cases h <;> rfl
@[simp] theorem State.setHubRed_counters (h : Hub) (x : HubRed) : (s.setHubRed h x).counters = s.counters := by cases h <;> rfl
@[simp] theorem State.setHubRed_free (h : Hub) (x : HubRed) : (s.setHubRed h x).free = s.free := by cases h <;> rfl

/-! ### setTable -/

@[simp] theorem State.setTable_pending (i : Nat) (m : List Host.Cell) : (s.setTable i m).pending = s.pending := rfl
@[simp] theorem State.setTable_node (i : Nat) (m : List Host.Cell) : (s.setTable i m).node = s.node := rfl
@[simp] theorem State.setTable_clock (i : Nat) (m : List Host.Cell) : (s.setTable i m).clock = s.clock := rfl
@[simp] theorem State.setTable_fes (i : Nat) (m : List Host.Cell) : (s.setTable i m).fes = s.fes := rfl
@[simp] theorem State.setTable_cells (i : Nat) (m : List Host.Cell) : (s.setTable i m).cells = s.cells := rfl
@[simp] theorem State.setTable_tdcs (i : Nat) (m : List Host.Cell) : (s.setTable i m).tdcs = s.tdcs := rfl
@[simp] theorem State.setTable_blocks (i : Nat) (m : List Host.Cell) : (s.setTable i m).blocks = s.blocks := rfl
@[simp] theorem State.setTable_lanes (i : Nat) (m : List Host.Cell) : (s.setTable i m).lanes = s.lanes := rfl
@[simp] theorem State.setTable_core (i : Nat) (m : List Host.Cell) : (s.setTable i m).core = s.core := rfl
@[simp] theorem State.setTable_gmem (i : Nat) (m : List Host.Cell) : (s.setTable i m).gmem = s.gmem := rfl
@[simp] theorem State.setTable_ring (i : Nat) (m : List Host.Cell) : (s.setTable i m).ring = s.ring := rfl
@[simp] theorem State.setTable_window (i : Nat) (m : List Host.Cell) : (s.setTable i m).window = s.window := rfl
@[simp] theorem State.setTable_windowB (i : Nat) (m : List Host.Cell) : (s.setTable i m).windowB = s.windowB := rfl
@[simp] theorem State.setTable_trig (i : Nat) (m : List Host.Cell) : (s.setTable i m).trig = s.trig := rfl
@[simp] theorem State.setTable_balers (i : Nat) (m : List Host.Cell) : (s.setTable i m).balers = s.balers := rfl
@[simp] theorem State.setTable_jobs (i : Nat) (m : List Host.Cell) : (s.setTable i m).jobs = s.jobs := rfl
@[simp] theorem State.setTable_pcie (i : Nat) (m : List Host.Cell) : (s.setTable i m).pcie = s.pcie := rfl
@[simp] theorem State.setTable_foda (i : Nat) (m : List Host.Cell) : (s.setTable i m).foda = s.foda := rfl
@[simp] theorem State.setTable_time (i : Nat) (m : List Host.Cell) : (s.setTable i m).time = s.time := rfl
@[simp] theorem State.setTable_tallies (i : Nat) (m : List Host.Cell) : (s.setTable i m).tallies = s.tallies := rfl
@[simp] theorem State.setTable_red (i : Nat) (m : List Host.Cell) : (s.setTable i m).red = s.red := rfl
@[simp] theorem State.setTable_mon (i : Nat) (m : List Host.Cell) : (s.setTable i m).mon = s.mon := rfl
@[simp] theorem State.setTable_thermal (i : Nat) (m : List Host.Cell) : (s.setTable i m).thermal = s.thermal := rfl
@[simp] theorem State.setTable_loopA (i : Nat) (m : List Host.Cell) : (s.setTable i m).loopA = s.loopA := rfl
@[simp] theorem State.setTable_loopB (i : Nat) (m : List Host.Cell) : (s.setTable i m).loopB = s.loopB := rfl
@[simp] theorem State.setTable_loops (i : Nat) (m : List Host.Cell) : (s.setTable i m).loops = s.loops := rfl
@[simp] theorem State.setTable_hay (i : Nat) (m : List Host.Cell) : (s.setTable i m).hay = s.hay := rfl
@[simp] theorem State.setTable_counters (i : Nat) (m : List Host.Cell) : (s.setTable i m).counters = s.counters := rfl
@[simp] theorem State.setTable_free (i : Nat) (m : List Host.Cell) : (s.setTable i m).free = s.free := rfl

/-! ### bump -/

@[simp] theorem State.bump_pending (f : Fig) (n : Nat) : (s.bump f n).pending = s.pending := rfl
@[simp] theorem State.bump_node (f : Fig) (n : Nat) : (s.bump f n).node = s.node := rfl
@[simp] theorem State.bump_clock (f : Fig) (n : Nat) : (s.bump f n).clock = s.clock := rfl
@[simp] theorem State.bump_fes (f : Fig) (n : Nat) : (s.bump f n).fes = s.fes := rfl
@[simp] theorem State.bump_cells (f : Fig) (n : Nat) : (s.bump f n).cells = s.cells := rfl
@[simp] theorem State.bump_tdcs (f : Fig) (n : Nat) : (s.bump f n).tdcs = s.tdcs := rfl
@[simp] theorem State.bump_blocks (f : Fig) (n : Nat) : (s.bump f n).blocks = s.blocks := rfl
@[simp] theorem State.bump_lanes (f : Fig) (n : Nat) : (s.bump f n).lanes = s.lanes := rfl
@[simp] theorem State.bump_core (f : Fig) (n : Nat) : (s.bump f n).core = s.core := rfl
@[simp] theorem State.bump_gmem (f : Fig) (n : Nat) : (s.bump f n).gmem = s.gmem := rfl
@[simp] theorem State.bump_tables (f : Fig) (n : Nat) : (s.bump f n).tables = s.tables := rfl
@[simp] theorem State.bump_ring (f : Fig) (n : Nat) : (s.bump f n).ring = s.ring := rfl
@[simp] theorem State.bump_window (f : Fig) (n : Nat) : (s.bump f n).window = s.window := rfl
@[simp] theorem State.bump_windowB (f : Fig) (n : Nat) : (s.bump f n).windowB = s.windowB := rfl
@[simp] theorem State.bump_trig (f : Fig) (n : Nat) : (s.bump f n).trig = s.trig := rfl
@[simp] theorem State.bump_balers (f : Fig) (n : Nat) : (s.bump f n).balers = s.balers := rfl
@[simp] theorem State.bump_jobs (f : Fig) (n : Nat) : (s.bump f n).jobs = s.jobs := rfl
@[simp] theorem State.bump_pcie (f : Fig) (n : Nat) : (s.bump f n).pcie = s.pcie := rfl
@[simp] theorem State.bump_foda (f : Fig) (n : Nat) : (s.bump f n).foda = s.foda := rfl
@[simp] theorem State.bump_time (f : Fig) (n : Nat) : (s.bump f n).time = s.time := rfl
@[simp] theorem State.bump_tallies (f : Fig) (n : Nat) : (s.bump f n).tallies = s.tallies := rfl
@[simp] theorem State.bump_red (f : Fig) (n : Nat) : (s.bump f n).red = s.red := rfl
@[simp] theorem State.bump_mon (f : Fig) (n : Nat) : (s.bump f n).mon = s.mon := rfl
@[simp] theorem State.bump_thermal (f : Fig) (n : Nat) : (s.bump f n).thermal = s.thermal := rfl
@[simp] theorem State.bump_loopA (f : Fig) (n : Nat) : (s.bump f n).loopA = s.loopA := rfl
@[simp] theorem State.bump_loopB (f : Fig) (n : Nat) : (s.bump f n).loopB = s.loopB := rfl
@[simp] theorem State.bump_loops (f : Fig) (n : Nat) : (s.bump f n).loops = s.loops := rfl
@[simp] theorem State.bump_hay (f : Fig) (n : Nat) : (s.bump f n).hay = s.hay := rfl
@[simp] theorem State.bump_free (f : Fig) (n : Nat) : (s.bump f n).free = s.free := rfl

/-! ### peak -/

@[simp] theorem State.peak_pending (f : Fig) (n : Nat) : (s.peak f n).pending = s.pending := rfl
@[simp] theorem State.peak_node (f : Fig) (n : Nat) : (s.peak f n).node = s.node := rfl
@[simp] theorem State.peak_clock (f : Fig) (n : Nat) : (s.peak f n).clock = s.clock := rfl
@[simp] theorem State.peak_fes (f : Fig) (n : Nat) : (s.peak f n).fes = s.fes := rfl
@[simp] theorem State.peak_cells (f : Fig) (n : Nat) : (s.peak f n).cells = s.cells := rfl
@[simp] theorem State.peak_tdcs (f : Fig) (n : Nat) : (s.peak f n).tdcs = s.tdcs := rfl
@[simp] theorem State.peak_blocks (f : Fig) (n : Nat) : (s.peak f n).blocks = s.blocks := rfl
@[simp] theorem State.peak_lanes (f : Fig) (n : Nat) : (s.peak f n).lanes = s.lanes := rfl
@[simp] theorem State.peak_core (f : Fig) (n : Nat) : (s.peak f n).core = s.core := rfl
@[simp] theorem State.peak_gmem (f : Fig) (n : Nat) : (s.peak f n).gmem = s.gmem := rfl
@[simp] theorem State.peak_tables (f : Fig) (n : Nat) : (s.peak f n).tables = s.tables := rfl
@[simp] theorem State.peak_ring (f : Fig) (n : Nat) : (s.peak f n).ring = s.ring := rfl
@[simp] theorem State.peak_window (f : Fig) (n : Nat) : (s.peak f n).window = s.window := rfl
@[simp] theorem State.peak_windowB (f : Fig) (n : Nat) : (s.peak f n).windowB = s.windowB := rfl
@[simp] theorem State.peak_trig (f : Fig) (n : Nat) : (s.peak f n).trig = s.trig := rfl
@[simp] theorem State.peak_balers (f : Fig) (n : Nat) : (s.peak f n).balers = s.balers := rfl
@[simp] theorem State.peak_jobs (f : Fig) (n : Nat) : (s.peak f n).jobs = s.jobs := rfl
@[simp] theorem State.peak_pcie (f : Fig) (n : Nat) : (s.peak f n).pcie = s.pcie := rfl
@[simp] theorem State.peak_foda (f : Fig) (n : Nat) : (s.peak f n).foda = s.foda := rfl
@[simp] theorem State.peak_time (f : Fig) (n : Nat) : (s.peak f n).time = s.time := rfl
@[simp] theorem State.peak_tallies (f : Fig) (n : Nat) : (s.peak f n).tallies = s.tallies := rfl
@[simp] theorem State.peak_red (f : Fig) (n : Nat) : (s.peak f n).red = s.red := rfl
@[simp] theorem State.peak_mon (f : Fig) (n : Nat) : (s.peak f n).mon = s.mon := rfl
@[simp] theorem State.peak_thermal (f : Fig) (n : Nat) : (s.peak f n).thermal = s.thermal := rfl
@[simp] theorem State.peak_loopA (f : Fig) (n : Nat) : (s.peak f n).loopA = s.loopA := rfl
@[simp] theorem State.peak_loopB (f : Fig) (n : Nat) : (s.peak f n).loopB = s.loopB := rfl
@[simp] theorem State.peak_loops (f : Fig) (n : Nat) : (s.peak f n).loops = s.loops := rfl
@[simp] theorem State.peak_hay (f : Fig) (n : Nat) : (s.peak f n).hay = s.hay := rfl
@[simp] theorem State.peak_free (f : Fig) (n : Nat) : (s.peak f n).free = s.free := rfl

/-! ### emit -/

@[simp] theorem State.emit_pending (o : Out) : (s.emit o).pending = s.pending := rfl
@[simp] theorem State.emit_node (o : Out) : (s.emit o).node = s.node := rfl
@[simp] theorem State.emit_clock (o : Out) : (s.emit o).clock = s.clock := rfl
@[simp] theorem State.emit_fes (o : Out) : (s.emit o).fes = s.fes := rfl
@[simp] theorem State.emit_cells (o : Out) : (s.emit o).cells = s.cells := rfl
@[simp] theorem State.emit_tdcs (o : Out) : (s.emit o).tdcs = s.tdcs := rfl
@[simp] theorem State.emit_blocks (o : Out) : (s.emit o).blocks = s.blocks := rfl
@[simp] theorem State.emit_lanes (o : Out) : (s.emit o).lanes = s.lanes := rfl
@[simp] theorem State.emit_core (o : Out) : (s.emit o).core = s.core := rfl
@[simp] theorem State.emit_gmem (o : Out) : (s.emit o).gmem = s.gmem := rfl
@[simp] theorem State.emit_tables (o : Out) : (s.emit o).tables = s.tables := rfl
@[simp] theorem State.emit_ring (o : Out) : (s.emit o).ring = s.ring := rfl
@[simp] theorem State.emit_window (o : Out) : (s.emit o).window = s.window := rfl
@[simp] theorem State.emit_windowB (o : Out) : (s.emit o).windowB = s.windowB := rfl
@[simp] theorem State.emit_trig (o : Out) : (s.emit o).trig = s.trig := rfl
@[simp] theorem State.emit_balers (o : Out) : (s.emit o).balers = s.balers := rfl
@[simp] theorem State.emit_jobs (o : Out) : (s.emit o).jobs = s.jobs := rfl
@[simp] theorem State.emit_foda (o : Out) : (s.emit o).foda = s.foda := rfl
@[simp] theorem State.emit_time (o : Out) : (s.emit o).time = s.time := rfl
@[simp] theorem State.emit_tallies (o : Out) : (s.emit o).tallies = s.tallies := rfl
@[simp] theorem State.emit_red (o : Out) : (s.emit o).red = s.red := rfl
@[simp] theorem State.emit_mon (o : Out) : (s.emit o).mon = s.mon := rfl
@[simp] theorem State.emit_thermal (o : Out) : (s.emit o).thermal = s.thermal := rfl
@[simp] theorem State.emit_loopA (o : Out) : (s.emit o).loopA = s.loopA := rfl
@[simp] theorem State.emit_loopB (o : Out) : (s.emit o).loopB = s.loopB := rfl
@[simp] theorem State.emit_loops (o : Out) : (s.emit o).loops = s.loops := rfl
@[simp] theorem State.emit_hay (o : Out) : (s.emit o).hay = s.hay := rfl
@[simp] theorem State.emit_counters (o : Out) : (s.emit o).counters = s.counters := rfl
@[simp] theorem State.emit_free (o : Out) : (s.emit o).free = s.free := rfl

/-! ### seeAll -/

@[simp] theorem State.seeAll_pending (b : Option Nat) : (s.seeAll b).pending = s.pending := rfl
@[simp] theorem State.seeAll_clock (b : Option Nat) : (s.seeAll b).clock = s.clock := rfl
@[simp] theorem State.seeAll_fes (b : Option Nat) : (s.seeAll b).fes = s.fes := rfl
@[simp] theorem State.seeAll_cells (b : Option Nat) : (s.seeAll b).cells = s.cells := rfl
@[simp] theorem State.seeAll_tdcs (b : Option Nat) : (s.seeAll b).tdcs = s.tdcs := rfl
@[simp] theorem State.seeAll_blocks (b : Option Nat) : (s.seeAll b).blocks = s.blocks := rfl
@[simp] theorem State.seeAll_lanes (b : Option Nat) : (s.seeAll b).lanes = s.lanes := rfl
@[simp] theorem State.seeAll_core (b : Option Nat) : (s.seeAll b).core = s.core := rfl
@[simp] theorem State.seeAll_gmem (b : Option Nat) : (s.seeAll b).gmem = s.gmem := rfl
@[simp] theorem State.seeAll_tables (b : Option Nat) : (s.seeAll b).tables = s.tables := rfl
@[simp] theorem State.seeAll_ring (b : Option Nat) : (s.seeAll b).ring = s.ring := rfl
@[simp] theorem State.seeAll_window (b : Option Nat) : (s.seeAll b).window = s.window := rfl
@[simp] theorem State.seeAll_windowB (b : Option Nat) : (s.seeAll b).windowB = s.windowB := rfl
@[simp] theorem State.seeAll_trig (b : Option Nat) : (s.seeAll b).trig = s.trig := rfl
@[simp] theorem State.seeAll_balers (b : Option Nat) : (s.seeAll b).balers = s.balers := rfl
@[simp] theorem State.seeAll_jobs (b : Option Nat) : (s.seeAll b).jobs = s.jobs := rfl
@[simp] theorem State.seeAll_foda (b : Option Nat) : (s.seeAll b).foda = s.foda := rfl
@[simp] theorem State.seeAll_time (b : Option Nat) : (s.seeAll b).time = s.time := rfl
@[simp] theorem State.seeAll_tallies (b : Option Nat) : (s.seeAll b).tallies = s.tallies := rfl
@[simp] theorem State.seeAll_red (b : Option Nat) : (s.seeAll b).red = s.red := rfl
@[simp] theorem State.seeAll_mon (b : Option Nat) : (s.seeAll b).mon = s.mon := rfl
@[simp] theorem State.seeAll_thermal (b : Option Nat) : (s.seeAll b).thermal = s.thermal := rfl
@[simp] theorem State.seeAll_loopA (b : Option Nat) : (s.seeAll b).loopA = s.loopA := rfl
@[simp] theorem State.seeAll_loopB (b : Option Nat) : (s.seeAll b).loopB = s.loopB := rfl
@[simp] theorem State.seeAll_loops (b : Option Nat) : (s.seeAll b).loops = s.loops := rfl
@[simp] theorem State.seeAll_hay (b : Option Nat) : (s.seeAll b).hay = s.hay := rfl
@[simp] theorem State.seeAll_counters (b : Option Nat) : (s.seeAll b).counters = s.counters := rfl
@[simp] theorem State.seeAll_free (b : Option Nat) : (s.seeAll b).free = s.free := rfl

/-! ### postWord -/

@[simp] theorem State.postWord_pending (c v o : Nat) (a : List (BitVec 64)) : (s.postWord c v o a).pending = s.pending := rfl
@[simp] theorem State.postWord_node (c v o : Nat) (a : List (BitVec 64)) : (s.postWord c v o a).node = s.node := rfl
@[simp] theorem State.postWord_clock (c v o : Nat) (a : List (BitVec 64)) : (s.postWord c v o a).clock = s.clock := rfl
@[simp] theorem State.postWord_fes (c v o : Nat) (a : List (BitVec 64)) : (s.postWord c v o a).fes = s.fes := rfl
@[simp] theorem State.postWord_cells (c v o : Nat) (a : List (BitVec 64)) : (s.postWord c v o a).cells = s.cells := rfl
@[simp] theorem State.postWord_tdcs (c v o : Nat) (a : List (BitVec 64)) : (s.postWord c v o a).tdcs = s.tdcs := rfl
@[simp] theorem State.postWord_blocks (c v o : Nat) (a : List (BitVec 64)) : (s.postWord c v o a).blocks = s.blocks := rfl
@[simp] theorem State.postWord_lanes (c v o : Nat) (a : List (BitVec 64)) : (s.postWord c v o a).lanes = s.lanes := rfl
@[simp] theorem State.postWord_core (c v o : Nat) (a : List (BitVec 64)) : (s.postWord c v o a).core = s.core := rfl
@[simp] theorem State.postWord_gmem (c v o : Nat) (a : List (BitVec 64)) : (s.postWord c v o a).gmem = s.gmem := rfl
@[simp] theorem State.postWord_tables (c v o : Nat) (a : List (BitVec 64)) : (s.postWord c v o a).tables = s.tables := rfl
@[simp] theorem State.postWord_ring (c v o : Nat) (a : List (BitVec 64)) : (s.postWord c v o a).ring = s.ring := rfl
@[simp] theorem State.postWord_window (c v o : Nat) (a : List (BitVec 64)) : (s.postWord c v o a).window = s.window := rfl
@[simp] theorem State.postWord_windowB (c v o : Nat) (a : List (BitVec 64)) : (s.postWord c v o a).windowB = s.windowB := rfl
@[simp] theorem State.postWord_trig (c v o : Nat) (a : List (BitVec 64)) : (s.postWord c v o a).trig = s.trig := rfl
@[simp] theorem State.postWord_balers (c v o : Nat) (a : List (BitVec 64)) : (s.postWord c v o a).balers = s.balers := rfl
@[simp] theorem State.postWord_jobs (c v o : Nat) (a : List (BitVec 64)) : (s.postWord c v o a).jobs = s.jobs := rfl
@[simp] theorem State.postWord_pcie (c v o : Nat) (a : List (BitVec 64)) : (s.postWord c v o a).pcie = s.pcie := rfl
@[simp] theorem State.postWord_foda (c v o : Nat) (a : List (BitVec 64)) : (s.postWord c v o a).foda = s.foda := rfl
@[simp] theorem State.postWord_time (c v o : Nat) (a : List (BitVec 64)) : (s.postWord c v o a).time = s.time := rfl
@[simp] theorem State.postWord_tallies (c v o : Nat) (a : List (BitVec 64)) : (s.postWord c v o a).tallies = s.tallies := rfl
@[simp] theorem State.postWord_red (c v o : Nat) (a : List (BitVec 64)) : (s.postWord c v o a).red = s.red := rfl
@[simp] theorem State.postWord_mon (c v o : Nat) (a : List (BitVec 64)) : (s.postWord c v o a).mon = s.mon := rfl
@[simp] theorem State.postWord_thermal (c v o : Nat) (a : List (BitVec 64)) : (s.postWord c v o a).thermal = s.thermal := rfl
@[simp] theorem State.postWord_loopA (c v o : Nat) (a : List (BitVec 64)) : (s.postWord c v o a).loopA = s.loopA := rfl
@[simp] theorem State.postWord_loopB (c v o : Nat) (a : List (BitVec 64)) : (s.postWord c v o a).loopB = s.loopB := rfl
@[simp] theorem State.postWord_loops (c v o : Nat) (a : List (BitVec 64)) : (s.postWord c v o a).loops = s.loops := rfl
@[simp] theorem State.postWord_counters (c v o : Nat) (a : List (BitVec 64)) : (s.postWord c v o a).counters = s.counters := rfl
@[simp] theorem State.postWord_free (c v o : Nat) (a : List (BitVec 64)) : (s.postWord c v o a).free = s.free := rfl

/-! ### post -/

@[simp] theorem State.post_pending (e : Ev) (l : List (Nat × Nat)) (o : Option Hub) : (s.post e l o).pending = s.pending := rfl
@[simp] theorem State.post_clock (e : Ev) (l : List (Nat × Nat)) (o : Option Hub) : (s.post e l o).clock = s.clock := rfl
@[simp] theorem State.post_fes (e : Ev) (l : List (Nat × Nat)) (o : Option Hub) : (s.post e l o).fes = s.fes := rfl
@[simp] theorem State.post_cells (e : Ev) (l : List (Nat × Nat)) (o : Option Hub) : (s.post e l o).cells = s.cells := rfl
@[simp] theorem State.post_tdcs (e : Ev) (l : List (Nat × Nat)) (o : Option Hub) : (s.post e l o).tdcs = s.tdcs := rfl
@[simp] theorem State.post_blocks (e : Ev) (l : List (Nat × Nat)) (o : Option Hub) : (s.post e l o).blocks = s.blocks := rfl
@[simp] theorem State.post_lanes (e : Ev) (l : List (Nat × Nat)) (o : Option Hub) : (s.post e l o).lanes = s.lanes := rfl
@[simp] theorem State.post_core (e : Ev) (l : List (Nat × Nat)) (o : Option Hub) : (s.post e l o).core = s.core := rfl
@[simp] theorem State.post_gmem (e : Ev) (l : List (Nat × Nat)) (o : Option Hub) : (s.post e l o).gmem = s.gmem := rfl
@[simp] theorem State.post_tables (e : Ev) (l : List (Nat × Nat)) (o : Option Hub) : (s.post e l o).tables = s.tables := rfl
@[simp] theorem State.post_ring (e : Ev) (l : List (Nat × Nat)) (o : Option Hub) : (s.post e l o).ring = s.ring := rfl
@[simp] theorem State.post_window (e : Ev) (l : List (Nat × Nat)) (o : Option Hub) : (s.post e l o).window = s.window := rfl
@[simp] theorem State.post_windowB (e : Ev) (l : List (Nat × Nat)) (o : Option Hub) : (s.post e l o).windowB = s.windowB := rfl
@[simp] theorem State.post_trig (e : Ev) (l : List (Nat × Nat)) (o : Option Hub) : (s.post e l o).trig = s.trig := rfl
@[simp] theorem State.post_balers (e : Ev) (l : List (Nat × Nat)) (o : Option Hub) : (s.post e l o).balers = s.balers := rfl
@[simp] theorem State.post_jobs (e : Ev) (l : List (Nat × Nat)) (o : Option Hub) : (s.post e l o).jobs = s.jobs := rfl
@[simp] theorem State.post_foda (e : Ev) (l : List (Nat × Nat)) (o : Option Hub) : (s.post e l o).foda = s.foda := rfl
@[simp] theorem State.post_time (e : Ev) (l : List (Nat × Nat)) (o : Option Hub) : (s.post e l o).time = s.time := rfl
@[simp] theorem State.post_tallies (e : Ev) (l : List (Nat × Nat)) (o : Option Hub) : (s.post e l o).tallies = s.tallies := rfl
@[simp] theorem State.post_red (e : Ev) (l : List (Nat × Nat)) (o : Option Hub) : (s.post e l o).red = s.red := rfl
@[simp] theorem State.post_mon (e : Ev) (l : List (Nat × Nat)) (o : Option Hub) : (s.post e l o).mon = s.mon := rfl
@[simp] theorem State.post_thermal (e : Ev) (l : List (Nat × Nat)) (o : Option Hub) : (s.post e l o).thermal = s.thermal := rfl
@[simp] theorem State.post_loopA (e : Ev) (l : List (Nat × Nat)) (o : Option Hub) : (s.post e l o).loopA = s.loopA := rfl
@[simp] theorem State.post_loopB (e : Ev) (l : List (Nat × Nat)) (o : Option Hub) : (s.post e l o).loopB = s.loopB := rfl
@[simp] theorem State.post_loops (e : Ev) (l : List (Nat × Nat)) (o : Option Hub) : (s.post e l o).loops = s.loops := rfl
@[simp] theorem State.post_counters (e : Ev) (l : List (Nat × Nat)) (o : Option Hub) : (s.post e l o).counters = s.counters := rfl
@[simp] theorem State.post_free (e : Ev) (l : List (Nat × Nat)) (o : Option Hub) : (s.post e l o).free = s.free := rfl

/-! ### localErr -/

@[simp] theorem State.localErr_pending (h : Hub) (e : LocalErr) : (s.localErr h e).pending = s.pending := by cases h <;> rfl
@[simp] theorem State.localErr_node (h : Hub) (e : LocalErr) : (s.localErr h e).node = s.node := by cases h <;> rfl
@[simp] theorem State.localErr_clock (h : Hub) (e : LocalErr) : (s.localErr h e).clock = s.clock := by cases h <;> rfl
@[simp] theorem State.localErr_fes (h : Hub) (e : LocalErr) : (s.localErr h e).fes = s.fes := by cases h <;> rfl
@[simp] theorem State.localErr_cells (h : Hub) (e : LocalErr) : (s.localErr h e).cells = s.cells := by cases h <;> rfl
@[simp] theorem State.localErr_tdcs (h : Hub) (e : LocalErr) : (s.localErr h e).tdcs = s.tdcs := by cases h <;> rfl
@[simp] theorem State.localErr_blocks (h : Hub) (e : LocalErr) : (s.localErr h e).blocks = s.blocks := by cases h <;> rfl
@[simp] theorem State.localErr_lanes (h : Hub) (e : LocalErr) : (s.localErr h e).lanes = s.lanes := by cases h <;> rfl
@[simp] theorem State.localErr_core (h : Hub) (e : LocalErr) : (s.localErr h e).core = s.core := by cases h <;> rfl
@[simp] theorem State.localErr_gmem (h : Hub) (e : LocalErr) : (s.localErr h e).gmem = s.gmem := by cases h <;> rfl
@[simp] theorem State.localErr_tables (h : Hub) (e : LocalErr) : (s.localErr h e).tables = s.tables := by cases h <;> rfl
@[simp] theorem State.localErr_ring (h : Hub) (e : LocalErr) : (s.localErr h e).ring = s.ring := by cases h <;> rfl
@[simp] theorem State.localErr_window (h : Hub) (e : LocalErr) : (s.localErr h e).window = s.window := by cases h <;> rfl
@[simp] theorem State.localErr_windowB (h : Hub) (e : LocalErr) : (s.localErr h e).windowB = s.windowB := by cases h <;> rfl
@[simp] theorem State.localErr_trig (h : Hub) (e : LocalErr) : (s.localErr h e).trig = s.trig := by cases h <;> rfl
@[simp] theorem State.localErr_balers (h : Hub) (e : LocalErr) : (s.localErr h e).balers = s.balers := by cases h <;> rfl
@[simp] theorem State.localErr_jobs (h : Hub) (e : LocalErr) : (s.localErr h e).jobs = s.jobs := by cases h <;> rfl
@[simp] theorem State.localErr_pcie (h : Hub) (e : LocalErr) : (s.localErr h e).pcie = s.pcie := by cases h <;> rfl
@[simp] theorem State.localErr_foda (h : Hub) (e : LocalErr) : (s.localErr h e).foda = s.foda := by cases h <;> rfl
@[simp] theorem State.localErr_time (h : Hub) (e : LocalErr) : (s.localErr h e).time = s.time := by cases h <;> rfl
@[simp] theorem State.localErr_tallies (h : Hub) (e : LocalErr) : (s.localErr h e).tallies = s.tallies := by cases h <;> rfl
@[simp] theorem State.localErr_mon (h : Hub) (e : LocalErr) : (s.localErr h e).mon = s.mon := by cases h <;> rfl
@[simp] theorem State.localErr_thermal (h : Hub) (e : LocalErr) : (s.localErr h e).thermal = s.thermal := by cases h <;> rfl
@[simp] theorem State.localErr_loopA (h : Hub) (e : LocalErr) : (s.localErr h e).loopA = s.loopA := by cases h <;> rfl
@[simp] theorem State.localErr_loopB (h : Hub) (e : LocalErr) : (s.localErr h e).loopB = s.loopB := by cases h <;> rfl
@[simp] theorem State.localErr_loops (h : Hub) (e : LocalErr) : (s.localErr h e).loops = s.loops := by cases h <;> rfl
@[simp] theorem State.localErr_hay (h : Hub) (e : LocalErr) : (s.localErr h e).hay = s.hay := by cases h <;> rfl
@[simp] theorem State.localErr_free (h : Hub) (e : LocalErr) : (s.localErr h e).free = s.free := by cases h <;> rfl

/-! ### cause -/

@[simp] theorem State.cause_pending (b : Nat) : (s.cause b).pending = s.pending := by simp only [State.cause]; split <;> rfl
@[simp] theorem State.cause_node (b : Nat) : (s.cause b).node = s.node := by simp only [State.cause]; split <;> rfl
@[simp] theorem State.cause_clock (b : Nat) : (s.cause b).clock = s.clock := by simp only [State.cause]; split <;> rfl
@[simp] theorem State.cause_fes (b : Nat) : (s.cause b).fes = s.fes := by simp only [State.cause]; split <;> rfl
@[simp] theorem State.cause_cells (b : Nat) : (s.cause b).cells = s.cells := by simp only [State.cause]; split <;> rfl
@[simp] theorem State.cause_tdcs (b : Nat) : (s.cause b).tdcs = s.tdcs := by simp only [State.cause]; split <;> rfl
@[simp] theorem State.cause_blocks (b : Nat) : (s.cause b).blocks = s.blocks := by simp only [State.cause]; split <;> rfl
@[simp] theorem State.cause_lanes (b : Nat) : (s.cause b).lanes = s.lanes := by simp only [State.cause]; split <;> rfl
@[simp] theorem State.cause_core (b : Nat) : (s.cause b).core = s.core := by simp only [State.cause]; split <;> rfl
@[simp] theorem State.cause_gmem (b : Nat) : (s.cause b).gmem = s.gmem := by simp only [State.cause]; split <;> rfl
@[simp] theorem State.cause_tables (b : Nat) : (s.cause b).tables = s.tables := by simp only [State.cause]; split <;> rfl
@[simp] theorem State.cause_ring (b : Nat) : (s.cause b).ring = s.ring := by simp only [State.cause]; split <;> rfl
@[simp] theorem State.cause_window (b : Nat) : (s.cause b).window = s.window := by simp only [State.cause]; split <;> rfl
@[simp] theorem State.cause_windowB (b : Nat) : (s.cause b).windowB = s.windowB := by simp only [State.cause]; split <;> rfl
@[simp] theorem State.cause_trig (b : Nat) : (s.cause b).trig = s.trig := by simp only [State.cause]; split <;> rfl
@[simp] theorem State.cause_balers (b : Nat) : (s.cause b).balers = s.balers := by simp only [State.cause]; split <;> rfl
@[simp] theorem State.cause_jobs (b : Nat) : (s.cause b).jobs = s.jobs := by simp only [State.cause]; split <;> rfl
@[simp] theorem State.cause_foda (b : Nat) : (s.cause b).foda = s.foda := by simp only [State.cause]; split <;> rfl
@[simp] theorem State.cause_time (b : Nat) : (s.cause b).time = s.time := by simp only [State.cause]; split <;> rfl
@[simp] theorem State.cause_tallies (b : Nat) : (s.cause b).tallies = s.tallies := by simp only [State.cause]; split <;> rfl
@[simp] theorem State.cause_red (b : Nat) : (s.cause b).red = s.red := by simp only [State.cause]; split <;> rfl
@[simp] theorem State.cause_mon (b : Nat) : (s.cause b).mon = s.mon := by simp only [State.cause]; split <;> rfl
@[simp] theorem State.cause_thermal (b : Nat) : (s.cause b).thermal = s.thermal := by simp only [State.cause]; split <;> rfl
@[simp] theorem State.cause_loopA (b : Nat) : (s.cause b).loopA = s.loopA := by simp only [State.cause]; split <;> rfl
@[simp] theorem State.cause_loopB (b : Nat) : (s.cause b).loopB = s.loopB := by simp only [State.cause]; split <;> rfl
@[simp] theorem State.cause_loops (b : Nat) : (s.cause b).loops = s.loops := by simp only [State.cause]; split <;> rfl
@[simp] theorem State.cause_hay (b : Nat) : (s.cause b).hay = s.hay := by simp only [State.cause]; split <;> rfl
@[simp] theorem State.cause_counters (b : Nat) : (s.cause b).counters = s.counters := by simp only [State.cause]; split <;> rfl
@[simp] theorem State.cause_free (b : Nat) : (s.cause b).free = s.free := by simp only [State.cause]; split <;> rfl

/-! ### takeClaim -/

@[simp] theorem State.takeClaim_pending (t i u : Nat) : (s.takeClaim t i u).pending = s.pending := by unfold State.takeClaim; split <;> rfl
@[simp] theorem State.takeClaim_clock (t i u : Nat) : (s.takeClaim t i u).clock = s.clock := by unfold State.takeClaim; split <;> rfl
@[simp] theorem State.takeClaim_fes (t i u : Nat) : (s.takeClaim t i u).fes = s.fes := by unfold State.takeClaim; split <;> rfl
@[simp] theorem State.takeClaim_cells (t i u : Nat) : (s.takeClaim t i u).cells = s.cells := by unfold State.takeClaim; split <;> rfl
@[simp] theorem State.takeClaim_tdcs (t i u : Nat) : (s.takeClaim t i u).tdcs = s.tdcs := by unfold State.takeClaim; split <;> rfl
@[simp] theorem State.takeClaim_blocks (t i u : Nat) : (s.takeClaim t i u).blocks = s.blocks := by unfold State.takeClaim; split <;> rfl
@[simp] theorem State.takeClaim_lanes (t i u : Nat) : (s.takeClaim t i u).lanes = s.lanes := by unfold State.takeClaim; split <;> rfl
@[simp] theorem State.takeClaim_core (t i u : Nat) : (s.takeClaim t i u).core = s.core := by unfold State.takeClaim; split <;> rfl
@[simp] theorem State.takeClaim_gmem (t i u : Nat) : (s.takeClaim t i u).gmem = s.gmem := by unfold State.takeClaim; split <;> rfl
@[simp] theorem State.takeClaim_tables (t i u : Nat) : (s.takeClaim t i u).tables = s.tables := by unfold State.takeClaim; split <;> rfl
@[simp] theorem State.takeClaim_ring (t i u : Nat) : (s.takeClaim t i u).ring = s.ring := by unfold State.takeClaim; split <;> rfl
@[simp] theorem State.takeClaim_window (t i u : Nat) : (s.takeClaim t i u).window = s.window := by unfold State.takeClaim; split <;> rfl
@[simp] theorem State.takeClaim_windowB (t i u : Nat) : (s.takeClaim t i u).windowB = s.windowB := by unfold State.takeClaim; split <;> rfl
@[simp] theorem State.takeClaim_trig (t i u : Nat) : (s.takeClaim t i u).trig = s.trig := by unfold State.takeClaim; split <;> rfl
@[simp] theorem State.takeClaim_balers (t i u : Nat) : (s.takeClaim t i u).balers = s.balers := by unfold State.takeClaim; split <;> rfl
@[simp] theorem State.takeClaim_jobs (t i u : Nat) : (s.takeClaim t i u).jobs = s.jobs := by unfold State.takeClaim; split <;> rfl
@[simp] theorem State.takeClaim_pcie (t i u : Nat) : (s.takeClaim t i u).pcie = s.pcie := by unfold State.takeClaim; split <;> rfl
@[simp] theorem State.takeClaim_foda (t i u : Nat) : (s.takeClaim t i u).foda = s.foda := by unfold State.takeClaim; split <;> rfl
@[simp] theorem State.takeClaim_time (t i u : Nat) : (s.takeClaim t i u).time = s.time := by unfold State.takeClaim; split <;> rfl
@[simp] theorem State.takeClaim_tallies (t i u : Nat) : (s.takeClaim t i u).tallies = s.tallies := by unfold State.takeClaim; split <;> rfl
@[simp] theorem State.takeClaim_red (t i u : Nat) : (s.takeClaim t i u).red = s.red := by unfold State.takeClaim; split <;> rfl
@[simp] theorem State.takeClaim_mon (t i u : Nat) : (s.takeClaim t i u).mon = s.mon := by unfold State.takeClaim; split <;> rfl
@[simp] theorem State.takeClaim_thermal (t i u : Nat) : (s.takeClaim t i u).thermal = s.thermal := by unfold State.takeClaim; split <;> rfl
@[simp] theorem State.takeClaim_loopA (t i u : Nat) : (s.takeClaim t i u).loopA = s.loopA := by unfold State.takeClaim; split <;> rfl
@[simp] theorem State.takeClaim_loopB (t i u : Nat) : (s.takeClaim t i u).loopB = s.loopB := by unfold State.takeClaim; split <;> rfl
@[simp] theorem State.takeClaim_loops (t i u : Nat) : (s.takeClaim t i u).loops = s.loops := by unfold State.takeClaim; split <;> rfl
@[simp] theorem State.takeClaim_hay (t i u : Nat) : (s.takeClaim t i u).hay = s.hay := by unfold State.takeClaim; split <;> rfl
@[simp] theorem State.takeClaim_counters (t i u : Nat) : (s.takeClaim t i u).counters = s.counters := by unfold State.takeClaim; split <;> rfl
@[simp] theorem State.takeClaim_free (t i u : Nat) : (s.takeClaim t i u).free = s.free := by unfold State.takeClaim; split <;> rfl

end Sys2Proof.Machine
end

