-- ==== Sys2Proof/Laws/Memory.lean ====
section
/-!
SUPPORT. The byte memories: a byte read after a write, and the canonical form that every operation on them keeps.
-/

namespace Sys2Proof.Machine

/-! ### One memory -/

theorem byteAt_putByte (m : List Host.Cell) (a k : Nat) (b : Byte) :
    byteAt (putByte m a b) k = if k = a then b else byteAt m k := Tbl.get_set ..

/-- putBytes writes exactly its bytes. -/
theorem byteAt_putBytes (bs : List Byte) (m : List Host.Cell) (a k : Nat) :
    byteAt (putBytes m a bs) k = if a ≤ k ∧ k < a + bs.length then bs.getD (k - a) 0 else byteAt m k := by
  induction bs generalizing m a with
  | nil => rw [if_neg (fun h => absurd (show k < a from h.2) (Nat.not_lt.mpr h.1))]; rfl
  | cons b bs ih =>
    rw [putBytes, ih, byteAt_putByte]
    rcases Nat.lt_trichotomy k a with h | h | h
    · rw [if_neg (by omega), if_neg (by omega), if_neg (by omega)]
    · subst h; rw [if_neg (by omega), if_pos rfl, if_pos (by simp)]; simp
    · by_cases hk : k < a + 1 + bs.length
      · rw [if_pos ⟨h, hk⟩, if_pos ⟨by omega, by simp; omega⟩, show k - a = (k - (a + 1)) + 1 by omega]; simp
      · rw [if_neg (by omega), if_neg (by omega), if_neg (by simp; omega)]

theorem wf_putByte (m : List Host.Cell) (a : Nat) (b : Byte) (h : Tbl.wf 0 m = true) : Tbl.wf 0 (putByte m a b) = true :=
  Tbl.wf_set 0 m a b h

theorem wf_putBytes (bs : List Byte) (m : List Host.Cell) (a : Nat) (h : Tbl.wf 0 m = true) :
    Tbl.wf 0 (putBytes m a bs) = true := by
  induction bs generalizing m a with
  | nil => exact h
  | cons b bs ih => exact ih _ _ (wf_putByte m a b h)

theorem above_cellsOf (bs : List Byte) (n : Nat) :
    Tbl.Above 0 n (((bs.zipIdx n).filter (fun p => p.1 ≠ 0)).map (fun p => (p.2, p.1))) := by
  induction bs generalizing n with
  | nil => trivial
  | cons b bs ih =>
    rw [List.zipIdx_cons, List.filter_cons]
    split
    · rename_i hb
      exact ⟨Nat.le_refl n, by simpa using hb, ih (n + 1)⟩
    · exact Tbl.above_mono 0 (ih (n + 1)) (Nat.le_succ n)

/-- A table made of bytes is in its canonical form. -/
theorem wf_cellsOf (bs : List Byte) : Tbl.wf 0 (cellsOf bs) = true :=
  (Tbl.wf_iff_above 0 _).2 (above_cellsOf bs 0)

/-- Dropping entries keeps the canonical form. -/
theorem Tbl.above_filter {α : Type} {d : α} (p : Nat × α → Bool) (t : Tbl α) (n : Nat) (h : Tbl.Above d n t) :
    Tbl.Above d n (t.filter p) := by
  induction t generalizing n with
  | nil => trivial
  | cons q t ih =>
    obtain ⟨k, v⟩ := q
    obtain ⟨h1, h2, h3⟩ := h
    by_cases hp : p (k, v) = true
    · simpa [List.filter_cons, hp] using ⟨h1, h2, ih _ h3⟩
    · simpa [List.filter_cons, hp] using Tbl.above_mono d (ih _ h3) (Nat.le_succ_of_le h1)

theorem Tbl.wf_filter {α : Type} [DecidableEq α] {d : α} (p : Nat × α → Bool) (t : Tbl α) (h : Tbl.wf d t = true) :
    Tbl.wf d (t.filter p) = true :=
  (Tbl.wf_iff_above d _).2 (Tbl.above_filter p t 0 ((Tbl.wf_iff_above d _).1 h))

/-! ### The state -/

/-- What leaves the bytes, the tags and the tables alone keeps the form. -/
theorem State.MemoryWf.of_eq {s t : State} (h : s.MemoryWf) (hb : t.gmem.bytes = s.gmem.bytes) (ht : t.gmem.tags = s.gmem.tags)
    (hT : t.tables = s.tables) : t.MemoryWf := by
  refine ⟨by rw [hb]; exact h.1, by rw [ht]; exact h.2.1, fun id => ?_⟩
  rw [State.table, hT]; exact h.2.2 id

theorem State.MemoryWf.setTable {s : State} (h : s.MemoryWf) (id : Nat) (m : List Host.Cell) (hm : Tbl.wf 0 m = true) :
    (s.setTable id m).MemoryWf := by
  refine ⟨h.1, h.2.1, fun j => ?_⟩
  rw [State.table_setTable]
  split
  · exact hm
  · exact h.2.2 j

theorem State.MemoryWf.storeByte {s : State} (h : s.MemoryWf) (p : Place) (b : Byte) (q : Bool) : (s.storeByte p b q).MemoryWf := by
  unfold State.storeByte
  split
  · exact ⟨wf_putByte _ _ _ h.1, Tbl.wf_set _ _ _ _ h.2.1, h.2.2⟩
  · exact h

/-- A store of a gleaner keeps the form (R146, R168). -/
theorem State.MemoryWf.storeBytes {s : State} (h : s.MemoryWf) (g sp a : Nat) (q : Bool) (bs : List Byte) :
    (s.storeBytes g sp a q bs).MemoryWf := by
  induction bs generalizing s a with
  | nil => exact h
  | cons b bs ih => exact ih (h.storeByte _ _ _) _

/-- A table write keeps the form (R150). -/
theorem State.MemoryWf.putTable {s : State} (h : s.MemoryWf) (id off : Nat) (bs : List Byte) :
    (s.setTable id (putBytes (s.table id) off bs)).MemoryWf :=
  h.setTable id _ (wf_putBytes _ _ _ (h.2.2 id))

/-- The tables of a program in force are in their canonical form (R174, R183). -/
theorem State.MemoryWf.placeTables {s : State} (h : s.MemoryWf) (p : Program) : (s.placeTables p).MemoryWf := by
  have hfold : ∀ (l : List Sect) (t : State), t.MemoryWf → (l.foldl (fun s x =>
      if x.type = 3 then s.setTable x.id (cellsOf (sectBytes p.bytes x)) else s) t).MemoryWf := by
    intro l
    induction l with
    | nil => exact fun _ ht => ht
    | cons x l ih =>
      intro t ht
      refine ih _ ?_
      dsimp only
      split
      · exact ht.setTable _ _ (wf_cellsOf _)
      · exact ht
  exact (hfold _ { s with tables := [] } ⟨h.1, h.2.1, fun _ => rfl⟩).setTable _ _ (wf_cellsOf _)

/-! ### What each hub has of its own -/

@[simp] theorem State.win_modWindows (s : State) (f : Hub → Window → Window) (h : Hub) :
    (s.modWindows f).win h = f h (s.win h) := by
  cases h <;> rfl

theorem Ring.scrubOf_setScrub (r : Ring) (h k : Hub) (x : Scrub) :
    (r.setScrub h x).scrubOf k = if k = h then x else r.scrubOf k := by
  cases h <;> cases k <;> rfl

end Sys2Proof.Machine
end

