-- ==== Sys2Proof/Laws/Ops.lean ====
section
/-!
SUPPORT. What the shared operations do: bit fields, counters, events, local errors, outputs, and the issue of a host command.
-/

namespace Sys2Proof.Machine

/-! ### Bit fields -/

theorem bitsAt_eq (x lo len : Nat) : bitsAt x lo len = x / 2 ^ lo % 2 ^ len := by simp [bitsAt, Nat.shiftRight_eq_div_pow]

theorem bitAt_eq (x i : Nat) : bitAt x i = x.testBit i := by
  simp [bitAt, bitsAt, Nat.testBit, Nat.and_one_is_mod, Nat.and_comm, Nat.mod_two_bne_zero]

theorem roundDiv_eq_nearest (a : Int) (b : Nat) : roundDiv a b = nearest a b := rfl

theorem openDiv_cases (place : Nat) (a : Int) (b : Nat) : openDiv place a b = a / b ∨ openDiv place a b = a / b + 1 := by
  unfold openDiv; split
  · exact .inl rfl
  · split
    · exact .inr rfl
    · exact .inl rfl

/-- A quotient without a stated rounding lies less than one unit from the exact value. -/
theorem openDiv_near (place : Nat) (a : Int) {b : Nat} (h : 0 < b) :
    a - b < openDiv place a b * b ∧ openDiv place a b * b < a + b := by
  have hb : (0 : Int) < b := by omega
  have h1 := Int.mul_ediv_add_emod a b
  have h2 := Int.emod_nonneg a (by omega : (b : Int) ≠ 0)
  have h3 := Int.emod_lt_of_pos a hb
  rw [Int.mul_comm] at h1
  unfold openDiv; split
  · constructor <;> omega
  · split
    · rw [Int.add_mul, Int.one_mul]; constructor <;> omega
    · constructor <;> omega

/-- A whole quotient is exact. -/
theorem openDiv_exact (place : Nat) (q : Int) {b : Nat} (h : 0 < b) : openDiv place (q * b) b = q := by
  have hb : (b : Int) ≠ 0 := by omega
  simp [openDiv, Int.mul_ediv_cancel _ hb]

theorem openSqrt_cases (place n d : Nat) :
    openSqrt place n d = Nat.sqrt (n / d) ∨ openSqrt place n d = Nat.sqrt (n / d) + 1 := by
  simp only [openSqrt]
  by_cases h : Nat.sqrt (n / d) * Nat.sqrt (n / d) * d = n <;> simp only [h, if_true, if_false, true_or]
  cases Config.roundsUp place n d <;> simp

theorem clampInt_eq {lo hi : Int} (h : lo ≤ hi) (x : Int) : clampInt lo hi x = max lo (min hi x) := by
  unfold clampInt; split
  · omega
  · split <;> omega

/-! ### Parity (R27) -/

theorem foldl_xor (f : Nat → Bool) (l : List Nat) (p : Bool) :
    l.foldl (fun b i => b ^^ f i) p = (p ^^ l.foldl (fun b i => b ^^ f i) false) := by
  induction l generalizing p with
  | nil => simp
  | cons x l ih => simp only [List.foldl_cons]; rw [ih, ih (false ^^ f x)]; simp

theorem parityOk_bit (w : BitVec 32) (p : Bool) : parityOk w p = (p ^^ parityOk w false) := foldl_xor _ _ _

/-- A word is good with the parity bit that a stage gives it. -/
@[simp] theorem parityOk_parityBit (w : BitVec 32) : parityOk w (parityBit w) = true := by
  rw [parityOk_bit]; simp [parityBit]

/-- A word that arrives as it was sent is good. -/
@[simp] theorem arrivesOk_zero (w : BitVec 32) : arrivesOk w 0 = true := by simp [arrivesOk]

/-! ### Counters -/

/-- Different figures have different keys, as far as their fields are in range. -/
theorem Fig.key_inj {f g : Fig} (hf : f.row < 64 ∧ f.q < 16 ∧ f.hub < 4 ∧ f.idx < 65536)
    (hg : g.row < 64 ∧ g.q < 16 ∧ g.hub < 4 ∧ g.idx < 65536) (h : f.key = g.key) : f = g := by
  obtain ⟨a, b, c, d, e⟩ := f
  obtain ⟨a', b', c', d', e'⟩ := g
  simp only [Fig.key] at *
  simp only [Fig.mk.injEq]
  omega

theorem State.count_bump (s : State) (f g : Fig) (n : Nat) :
    (s.bump f n).count g = if g.key = f.key then min counterMax (s.count f + n) else s.count g := Tbl.get_set ..

theorem State.count_peak (s : State) (f g : Fig) (n : Nat) :
    (s.peak f n).count g = if g.key = f.key then max n (s.count f) else s.count g := Tbl.get_set ..

/-- A bump counts. -/
theorem State.bump_counted (s : State) (f : Fig) (n : Nat) : Counted s (s.bump f n) f n := by
  simp [Counted, State.count_bump, counterMax]

/-! ### Events and local errors -/

@[simp] theorem State.postWord_fifo (s : State) (c v o : Nat) (a : List (BitVec 64)) :
    (s.postWord c v o a).hay.fifo = s.hay.fifo ++ [⟨c, v, o, a, s.nodeNow.1, s.nodeNow.2⟩] := rfl

/-- An event raises exactly its word. -/
theorem State.post_raised (s : State) (e : Ev) (l : List (Nat × Nat)) (o : Option Hub) : Raised s (s.post e l o) e.code :=
  ⟨_, rfl, rfl⟩

/-- An event changes Hayward's FIFO, and what the WAITs of rings and script have seen. -/
theorem State.post_eq (s : State) (e : Ev) (l : List (Nat × Nat)) (o : Option Hub) :
    s.post e l o = { s with
      hay := (s.post e l o).hay, pcie := { s.pcie with rings := (s.post e l o).pcie.rings }
      node := { s.node with script := (s.post e l o).node.script } } := rfl

/-- A local error is recorded with the step in progress. -/
theorem State.localErr_errs (s : State) (h k : Hub) (e : LocalErr) :
    ((s.localErr h e).hubRed k).errs = (s.hubRed k).errs ++ if k = h then [(e, s.clock.step)] else [] := by
  cases h <;> cases k <;> simp [State.localErr, State.bump, State.modHubRed, State.setHubRed, State.hubRed]

/-! ### Host commands -/

/-- A command in progress runs. -/
theorem State.InProgress.running {s : State} {src : Src} {cl sub w : Nat} (h : s.InProgress src cl sub w) :
    s.running? src cl sub = some w := by
  obtain ⟨hl, c, hc, hw, h1, h2⟩ := h
  simp only [State.running?, hc]
  rw [if_pos]
  · rw [hw]
  · rw [hw]
    exact ⟨by rw [cmdClass, bitsAt_eq]; simpa using h1, by rw [cmdSub, bitsAt_eq]; exact h2, hl⟩

theorem State.InProgress.command {s : State} {src : Src} {cl sub w : Nat} (h : s.InProgress src cl sub w) (f : Nat → State) :
    s.command src cl sub f = f w := by simp [State.command, h.running]

theorem cmdArg0_eq (w : Nat) : cmdArg0 w = arg0 w := bitsAt_eq ..

theorem cmdArg1_eq (w : Nat) : cmdArg1 w = arg1 w := bitsAt_eq ..

/-- Outside a command of this class and SUB nothing happens. -/
theorem State.command_none {s : State} {src : Src} {cl sub : Nat} (h : s.running? src cl sub = none) (f : Nat → State) :
    s.command src cl sub f = s := by simp [State.command, h]

/-- Nothing of the node runs in TRIPPED or without power. -/
theorem State.live_eq_false {s : State} (h : s.node.tripped = true ∨ s.node.pwrgd = false) : s.live = false := by
  rcases h with h | h <;> simp [State.live, h]

theorem State.running_none_of_not_live {s : State} (h : s.live = false) (src : Src) (cl sub : Nat) :
    s.running? src cl sub = none := by
  unfold State.running?
  split
  · simp [h]
  · rfl

end Sys2Proof.Machine
end

