-- ==== Sys2Proof/WellFormed.lean ====
section
/-!
DEFINITION. Which terms of Instr the manual admits as commands: the lengths of blocks and lists, and the ranges of the operands
whose types are wider than the manual's fields.
-/

namespace Sys2Proof

/-- A line number fits the field LINE of a write marker (R203). -/
def lineOk (n : Nat) : Bool := decide (n < 67108864)

/-- The operands of a command are of the sizes and ranges that the manual gives them: 40 sensors (R401), 512 channel words and the
region word of a die (R37), two tripped sensors of a die (R404), 42 records in a frame (R106), the 128 bytes of a line (R201),
three tries of a fetch (R210), 16-bit codes (R390), the four lanes of a port (R310), the blocks of R469 and R468, 4 KiB units of an
image (R464), the rows of R452, the phases of R373, the rates and widths of R272, the cycles of a period (R417). -/
def Instr.wf : Instr → Bool
  | .powerOnReset _ _ _ => true
  | .seedEnd => true
  | .selftestFinished _ _ => true
  | .tcmdNoLock _ => true
  | .pwrgdFall => true
  | .railFault _ _ => true
  | .trip _ sensors => decide (2 ≤ ((List.range 4).filter (fun k => sensors.getLsbD k)).length)
  | .tripRestart => true
  | .evaluation quarters _ _ => quarters.length == 40
  | .loopFault _ => true
  | .refLost _ => true
  | .refBack => true
  | .parityReplay _ _ => true
  | .leadingEdge _ _ _ _ => true
  | .trailingEdge _ _ _ _ _ => true
  | .hitLengthLimit _ _ _ => true
  | .rangeSwitch _ _ => true
  | .peakFoundArmed _ _ => true
  | .peakFound _ _ _ => true
  | .resetEnd _ _ => true
  | .rearm _ _ => true
  | .settleEnd _ _ => true
  | .controlLaneReceive _ _ => true
  | .sliceBoundary => true
  | .epochBoundary => true
  | .settingSweep _ upsets => upsets.all (fun u => decide (u.1 ≤ 512))
  | .blankRise _ _ => true
  | .maskStart _ _ => true
  | .blankFall _ _ => true
  | .maskEnd _ _ => true
  | .injectionStep _ _ => true
  | .mapArrival _ _ => true
  | .histogramFull _ => true
  | .rebuildDone _ => true
  | .ditherEntry _ _ _ => true
  | .ditherEnd _ _ => true
  | .tinEdge _ _ _ _ => true
  | .tallyStamp _ _ _ => true
  | .tallyGateOpen _ _ => true
  | .tallyGateClose _ => true
  | .tallyResult _ _ => true
  | .differenceResult _ => true
  | .grant _ _ => true
  | .holdSlotFreed _ _ _ => true
  | .conversionComplete _ _ _ _ _ => true
  | .referencePair _ _ _ => true
  | .rotationStep _ => true
  | .fifoRst _ _ => true
  | .derandomiserWrite _ => true
  | .sliceMarkerDue _ => true
  | .drRst _ _ => true
  | .lagRelease _ _ => true
  | .frameSend _ _ => true
  | .alignmentMarker _ _ lanes seqs _ => lanes.length == 4 && seqs.length == 4
  | .frameReceive _ _ _ badWords => badWords.all (fun b => decide (b.1 < 42))
  | .ack _ _ _ => true
  | .nak _ _ _ => true
  | .ackTimeout _ _ => true
  | .alignmentLoss _ _ => true
  | .markerTimeout _ _ => true
  | .retrainingDone _ _ => true
  | .retrainTimeout _ _ => true
  | .pause _ _ => true
  | .resume _ _ => true
  | .stepBoundary _ => true
  | .sheafWatchdog _ => true
  | .sliceRelease => true
  | .tableReloadDone _ => true
  | .add _ => true
  | .sub _ => true
  | .and _ => true
  | .or _ => true
  | .xor _ => true
  | .shl _ => true
  | .shr _ => true
  | .sra _ => true
  | .mul _ => true
  | .min _ => true
  | .max _ => true
  | .slt _ => true
  | .sltu _ => true
  | .beq _ => true
  | .bne _ => true
  | .addi _ => true
  | .andi _ => true
  | .ori _ => true
  | .xori _ => true
  | .shli _ => true
  | .shri _ => true
  | .srai _ => true
  | .ldi _ => true
  | .lhi _ => true
  | .blt _ => true
  | .bge _ => true
  | .jal _ => true
  | .jr _ => true
  | .fex _ => true
  | .fexs _ => true
  | .fins _ => true
  | .wfex _ => true
  | .wfins _ => true
  | .wmov _ => true
  | .lut _ _ => true
  | .wlut _ _ => true
  | .curve _ _ => true
  | .tadd _ => true
  | .tsub _ => true
  | .rnext _ _ => true
  | .rctx _ _ => true
  | .remit _ => true
  | .rdrop _ => true
  | .rflag _ => true
  | .pemit _ => true
  | .ptest _ => true
  | .gain _ => true
  | .take _ => true
  | .done _ => true
  | .sget _ => true
  | .ctot _ => true
  | .ld _ _ => true
  | .st _ => true
  | .wld _ _ => true
  | .wst _ => true
  | .crc _ => true
  | .wcrc _ => true
  | .fenceInstruction _ => true
  | .waitev _ => true
  | .waitevTimeout _ => true
  | .mail _ => true
  | .mrecv _ => true
  | .nopInstruction _ => true
  | .nopCommand _ => true
  | .load _ _ => true
  | .table _ _ => true
  | .mode _ => true
  | .powerActive _ _ => true
  | .powerHush _ => true
  | .powerRest _ => true
  | .powerFallow _ => true
  | .powerFrost _ => true
  | .incr _ => true
  | .timeStep _ => true
  | .tout _ _ => true
  | .tallyFrequency _ => true
  | .tallyDifference _ => true
  | .stopTallyUnit _ => true
  | .injectionStrobe _ => true
  | .softwareTrigger _ => true
  | .flush _ _ => true
  | .conditionEnableMask _ => true
  | .queryBlocks _ => true
  | .queryIngress _ => true
  | .queryMemory _ => true
  | .queryTrigger _ => true
  | .queryBalers _ => true
  | .queryPcie _ => true
  | .queryFodafort _ => true
  | .queryTime _ => true
  | .queryRedund _ => true
  | .queryEnviron _ => true
  | .queryLoops _ => true
  | .queryCalq _ => true
  | .queryTable _ => true
  | .queryTdcmap _ => true
  | .queryTally _ => true
  | .querySettings _ => true
  | .ringRead _ => true
  | .readlog _ => true
  | .setwriteMonitor _ block => block.length == 592
  | .setwriteLoop _ block => block.length == 320
  | .setwriteTimeService _ block => block.length == 24
  | .setwriteLoopaLoopb _ block => block.length == 16
  | .setwriteNodeWord _ block => block.length == 8
  | .setread _ => true
  | .reply _ => true
  | .monrun _ => true
  | .stage _ image _ => image.length % 4096 == 0
  | .verify _ _ => true
  | .commit _ _ => true
  | .activate _ => true
  | .otp _ block _ => block.length == 256
  | .fenceCommand _ => true
  | .waitEpoch _ => true
  | .waitNodeTime _ => true
  | .waitEvent _ => true
  | .waitTimeout _ => true
  | .startAcquisition => true
  | .stopAcquisition => true
  | .retrain => true
  | .returnToRefclk => true
  | .epochRestart => true
  | .liftFence => true
  | .progevt => true
  | .commandFetch _ _ _ => true
  | .sqtail _ _ _ => true
  | .cqhead _ _ _ => true
  | .commandRingEnable _ _ _ => true
  | .dataRingEnable _ _ _ => true
  | .dcons _ _ _ => true
  | .econs _ _ _ => true
  | .registerWrite _ _ _ _ _ => true
  | .causeClear _ _ => true
  | .seedwrRead _ => true
  | .stepLoRead _ _ => true
  | .go _ => true
  | .rd _ _ => true
  | .configurationRequest _ _ _ _ _ => true
  | .perst _ _ => true
  | .pciedown _ _ => true
  | .completionTlp _ _ _ _ _ => true
  | .completionTimeout _ => true
  | .pcieAck _ => true
  | .partDelivery => true
  | .serviceDelivery => true
  | .imodExpiry _ => true
  | .tcmdUnit _ _ => true
  | .tcmdsw _ _ => true
  | .streamEntry => true
  | .captureStart => true
  | .partComplete => true
  | .jobEnd _ _ _ => true
  | .lineFetch _ line errs => lineOk line && decide (errs.length ≤ 3)
  | .mergeWrite line off bytes => lineOk line && !bytes.isEmpty && decide (off + bytes.length ≤ 128)
  | .mergeEntryIdle line => lineOk line
  | .scrubRead _ _ addr errs => lineOk addr && decide (errs.length ≤ 3)
  | .trainingWord _ _ _ _ => true
  | .trainingTimeout _ _ => true
  | .backoffExpiry _ _ => true
  | .fodafortMarker _ _ lanes seqs _ => lanes.length == 4 && seqs.length == 4
  | .wake _ _ => true
  | .wakeTimeout _ _ => true
  | .dataFrame _ _ _ => true
  | .primFrame _ _ _ => true
  | .fodafortAck _ _ _ => true
  | .fodafortPause _ _ => true
  | .fodafortResume _ _ => true
  | .quiet _ _ => true
  | .pauseExpiry _ => true
  | .mergePauseRepeat _ => true
  | .ffnoack _ => true
  | .mergeTimeout _ _ => true
  | .syncInterval macs => macs.length == 4
  | .announceInterval => true
  | .sync _ _ _ _ _ _ _ => true
  | .dreq _ _ _ _ _ _ => true
  | .dresp _ _ _ => true
  | .announce _ _ _ => true
  | .exchangeTimeout _ => true
  | .toutPulse _ _ => true
  | .toutPulseEnd _ _ => true
  | .hubSilent _ => true
  | .stepskew _ => true
  | .digest _ _ => true
  | .localError _ _ => true
  | .replayRelease => true
  | .driveHeld => true
  | .stileLost _ => true
  | .rejoin _ failedPhase => (match failedPhase with
      | none => true
      | some p => decide (1 ≤ p) && decide (p ≤ 4))
  | .fifoPointerMismatch _ _ _ => true
  | .fifoResetEnd _ _ => true
  | .regularPass => true
  | .monitorPhaseEnd samples _ _ _ => samples.all (fun c => decide (-32768 ≤ c.2) && decide (c.2 ≤ 32767))
  | .injectedTrigger _ => true
  | .blankPauseEnd => true
  | .complianceTrip _ _ => true
  | .lcsCrossing _ _ => true
  | .loopPeriod _ _ onCycles cycles _ => decide (onCycles ≤ cycles)
  | .pwmPeriod _ => true
  | .pwmOnEnd _ => true
  | .gateWindowOpen _ => true
  | .gateWindowClose _ => true
  | .lampNtc _ => true
  | .event => true
  | .logBatch => true
  | .logSupp => true
  | .haywardPoll kind index _ => decide (1 ≤ kind) && decide (kind ≤ 8) && decide (index < 4096)
  | .fwWdog => true
  | .flashFail _ => true
  | .jtagInstruction _ _ => true
  | .xtalStop => true
  | .clkLoss _ => true
  | .refreshCommand _ => true
  | .lineWriteDone line errs => lineOk line && decide (errs.length ≤ 3)
  | .pcieLinkUp _ speed width => decide (1 ≤ speed) && decide (speed ≤ 6) && [1, 2, 4, 8].contains width
  | .tcmdLock _ => true
  | .ldgHoldEnd _ _ => true
  | .haywardUp => true
  | .flashDone => true
  | .testLogicReset => true

/-- Numbers of the GDDR7 lines that a command names. -/
def Instr.lineNumbers : Instr → List Nat
  | .powerOnReset _ _ _ => []
  | .seedEnd => []
  | .selftestFinished _ _ => []
  | .tcmdNoLock _ => []
  | .pwrgdFall => []
  | .railFault _ _ => []
  | .trip _ _ => []
  | .tripRestart => []
  | .evaluation _ _ _ => []
  | .loopFault _ => []
  | .refLost _ => []
  | .refBack => []
  | .parityReplay _ _ => []
  | .leadingEdge _ _ _ _ => []
  | .trailingEdge _ _ _ _ _ => []
  | .hitLengthLimit _ _ _ => []
  | .rangeSwitch _ _ => []
  | .peakFoundArmed _ _ => []
  | .peakFound _ _ _ => []
  | .resetEnd _ _ => []
  | .rearm _ _ => []
  | .settleEnd _ _ => []
  | .controlLaneReceive _ _ => []
  | .sliceBoundary => []
  | .epochBoundary => []
  | .settingSweep _ _ => []
  | .blankRise _ _ => []
  | .maskStart _ _ => []
  | .blankFall _ _ => []
  | .maskEnd _ _ => []
  | .injectionStep _ _ => []
  | .mapArrival _ _ => []
  | .histogramFull _ => []
  | .rebuildDone _ => []
  | .ditherEntry _ _ _ => []
  | .ditherEnd _ _ => []
  | .tinEdge _ _ _ _ => []
  | .tallyStamp _ _ _ => []
  | .tallyGateOpen _ _ => []
  | .tallyGateClose _ => []
  | .tallyResult _ _ => []
  | .differenceResult _ => []
  | .grant _ _ => []
  | .holdSlotFreed _ _ _ => []
  | .conversionComplete _ _ _ _ _ => []
  | .referencePair _ _ _ => []
  | .rotationStep _ => []
  | .fifoRst _ _ => []
  | .derandomiserWrite _ => []
  | .sliceMarkerDue _ => []
  | .drRst _ _ => []
  | .lagRelease _ _ => []
  | .frameSend _ _ => []
  | .alignmentMarker _ _ _ _ _ => []
  | .frameReceive _ _ _ _ => []
  | .ack _ _ _ => []
  | .nak _ _ _ => []
  | .ackTimeout _ _ => []
  | .alignmentLoss _ _ => []
  | .markerTimeout _ _ => []
  | .retrainingDone _ _ => []
  | .retrainTimeout _ _ => []
  | .pause _ _ => []
  | .resume _ _ => []
  | .stepBoundary _ => []
  | .sheafWatchdog _ => []
  | .sliceRelease => []
  | .tableReloadDone _ => []
  | .add _ => []
  | .sub _ => []
  | .and _ => []
  | .or _ => []
  | .xor _ => []
  | .shl _ => []
  | .shr _ => []
  | .sra _ => []
  | .mul _ => []
  | .min _ => []
  | .max _ => []
  | .slt _ => []
  | .sltu _ => []
  | .beq _ => []
  | .bne _ => []
  | .addi _ => []
  | .andi _ => []
  | .ori _ => []
  | .xori _ => []
  | .shli _ => []
  | .shri _ => []
  | .srai _ => []
  | .ldi _ => []
  | .lhi _ => []
  | .blt _ => []
  | .bge _ => []
  | .jal _ => []
  | .jr _ => []
  | .fex _ => []
  | .fexs _ => []
  | .fins _ => []
  | .wfex _ => []
  | .wfins _ => []
  | .wmov _ => []
  | .lut _ _ => []
  | .wlut _ _ => []
  | .curve _ _ => []
  | .tadd _ => []
  | .tsub _ => []
  | .rnext _ _ => []
  | .rctx _ _ => []
  | .remit _ => []
  | .rdrop _ => []
  | .rflag _ => []
  | .pemit _ => []
  | .ptest _ => []
  | .gain _ => []
  | .take _ => []
  | .done _ => []
  | .sget _ => []
  | .ctot _ => []
  | .ld _ _ => []
  | .st _ => []
  | .wld _ _ => []
  | .wst _ => []
  | .crc _ => []
  | .wcrc _ => []
  | .fenceInstruction _ => []
  | .waitev _ => []
  | .waitevTimeout _ => []
  | .mail _ => []
  | .mrecv _ => []
  | .nopInstruction _ => []
  | .nopCommand _ => []
  | .load _ _ => []
  | .table _ _ => []
  | .mode _ => []
  | .powerActive _ _ => []
  | .powerHush _ => []
  | .powerRest _ => []
  | .powerFallow _ => []
  | .powerFrost _ => []
  | .incr _ => []
  | .timeStep _ => []
  | .tout _ _ => []
  | .tallyFrequency _ => []
  | .tallyDifference _ => []
  | .stopTallyUnit _ => []
  | .injectionStrobe _ => []
  | .softwareTrigger _ => []
  | .flush _ _ => []
  | .conditionEnableMask _ => []
  | .queryBlocks _ => []
  | .queryIngress _ => []
  | .queryMemory _ => []
  | .queryTrigger _ => []
  | .queryBalers _ => []
  | .queryPcie _ => []
  | .queryFodafort _ => []
  | .queryTime _ => []
  | .queryRedund _ => []
  | .queryEnviron _ => []
  | .queryLoops _ => []
  | .queryCalq _ => []
  | .queryTable _ => []
  | .queryTdcmap _ => []
  | .queryTally _ => []
  | .querySettings _ => []
  | .ringRead _ => []
  | .readlog _ => []
  | .setwriteMonitor _ _ => []
  | .setwriteLoop _ _ => []
  | .setwriteTimeService _ _ => []
  | .setwriteLoopaLoopb _ _ => []
  | .setwriteNodeWord _ _ => []
  | .setread _ => []
  | .reply _ => []
  | .monrun _ => []
  | .stage _ _ _ => []
  | .verify _ _ => []
  | .commit _ _ => []
  | .activate _ => []
  | .otp _ _ _ => []
  | .fenceCommand _ => []
  | .waitEpoch _ => []
  | .waitNodeTime _ => []
  | .waitEvent _ => []
  | .waitTimeout _ => []
  | .startAcquisition => []
  | .stopAcquisition => []
  | .retrain => []
  | .returnToRefclk => []
  | .epochRestart => []
  | .liftFence => []
  | .progevt => []
  | .commandFetch _ _ _ => []
  | .sqtail _ _ _ => []
  | .cqhead _ _ _ => []
  | .commandRingEnable _ _ _ => []
  | .dataRingEnable _ _ _ => []
  | .dcons _ _ _ => []
  | .econs _ _ _ => []
  | .registerWrite _ _ _ _ _ => []
  | .causeClear _ _ => []
  | .seedwrRead _ => []
  | .stepLoRead _ _ => []
  | .go _ => []
  | .rd _ _ => []
  | .configurationRequest _ _ _ _ _ => []
  | .perst _ _ => []
  | .pciedown _ _ => []
  | .completionTlp _ _ _ _ _ => []
  | .completionTimeout _ => []
  | .pcieAck _ => []
  | .partDelivery => []
  | .serviceDelivery => []
  | .imodExpiry _ => []
  | .tcmdUnit _ _ => []
  | .tcmdsw _ _ => []
  | .streamEntry => []
  | .captureStart => []
  | .partComplete => []
  | .jobEnd _ _ _ => []
  | .lineFetch _ line _ => [line]
  | .mergeWrite line _ _ => [line]
  | .mergeEntryIdle line => [line]
  | .scrubRead _ _ addr _ => [addr]
  | .trainingWord _ _ _ _ => []
  | .trainingTimeout _ _ => []
  | .backoffExpiry _ _ => []
  | .fodafortMarker _ _ _ _ _ => []
  | .wake _ _ => []
  | .wakeTimeout _ _ => []
  | .dataFrame _ _ _ => []
  | .primFrame _ _ _ => []
  | .fodafortAck _ _ _ => []
  | .fodafortPause _ _ => []
  | .fodafortResume _ _ => []
  | .quiet _ _ => []
  | .pauseExpiry _ => []
  | .mergePauseRepeat _ => []
  | .ffnoack _ => []
  | .mergeTimeout _ _ => []
  | .syncInterval _ => []
  | .announceInterval => []
  | .sync _ _ _ _ _ _ _ => []
  | .dreq _ _ _ _ _ _ => []
  | .dresp _ _ _ => []
  | .announce _ _ _ => []
  | .exchangeTimeout _ => []
  | .toutPulse _ _ => []
  | .toutPulseEnd _ _ => []
  | .hubSilent _ => []
  | .stepskew _ => []
  | .digest _ _ => []
  | .localError _ _ => []
  | .replayRelease => []
  | .driveHeld => []
  | .stileLost _ => []
  | .rejoin _ _ => []
  | .fifoPointerMismatch _ _ _ => []
  | .fifoResetEnd _ _ => []
  | .regularPass => []
  | .monitorPhaseEnd _ _ _ _ => []
  | .injectedTrigger _ => []
  | .blankPauseEnd => []
  | .complianceTrip _ _ => []
  | .lcsCrossing _ _ => []
  | .loopPeriod _ _ _ _ _ => []
  | .pwmPeriod _ => []
  | .pwmOnEnd _ => []
  | .gateWindowOpen _ => []
  | .gateWindowClose _ => []
  | .lampNtc _ => []
  | .event => []
  | .logBatch => []
  | .logSupp => []
  | .haywardPoll _ _ _ => []
  | .fwWdog => []
  | .flashFail _ => []
  | .jtagInstruction _ _ => []
  | .xtalStop => []
  | .clkLoss _ => []
  | .refreshCommand _ => []
  | .lineWriteDone line _ => [line]
  | .pcieLinkUp _ _ _ => []
  | .tcmdLock _ => []
  | .ldgHoldEnd _ _ => []
  | .haywardUp => []
  | .flashDone => []
  | .testLogicReset => []

end Sys2Proof
end

