-- ==== Sys2Proof/Laws/PerInstr.lean ====
section
/-!
SUPPORT. Statements made for every command by name: the family Wf, that the lines a well-formed command names fit the field LINE.
-/

namespace Sys2Proof.Laws.Wf

/-- Every line number that a well-formed command names fits LINE (R203). -/
def Statement (i : Instr) : Prop := i.wf = true → ∀ n ∈ i.lineNumbers, n < 67108864

/-- A command that names no line. -/
theorem of_no_lines {i : Instr} (h : i.lineNumbers = []) : Statement i := by
  intro _ n hn
  rw [h] at hn
  cases hn

/-- A command that names one line, whose check implies the line's. -/
theorem of_line {i : Instr} {n : Nat} (h : i.lineNumbers = [n]) (hw : i.wf = true → lineOk n = true) : Statement i := by
  intro w m hm
  rw [h, List.mem_singleton] at hm
  subst hm
  simpa [lineOk] using hw w

theorem powerOnReset {x0 x1 x2} : Statement (.powerOnReset x0 x1 x2) := of_no_lines rfl

theorem seedEnd : Statement (.seedEnd) := of_no_lines rfl

theorem selftestFinished {x0 x1} : Statement (.selftestFinished x0 x1) := of_no_lines rfl

theorem tcmdNoLock {x0} : Statement (.tcmdNoLock x0) := of_no_lines rfl

theorem pwrgdFall : Statement (.pwrgdFall) := of_no_lines rfl

theorem railFault {x0 x1} : Statement (.railFault x0 x1) := of_no_lines rfl

theorem trip {x0 x1} : Statement (.trip x0 x1) := of_no_lines rfl

theorem tripRestart : Statement (.tripRestart) := of_no_lines rfl

theorem evaluation {x0 x1 x2} : Statement (.evaluation x0 x1 x2) := of_no_lines rfl

theorem loopFault {x0} : Statement (.loopFault x0) := of_no_lines rfl

theorem refLost {x0} : Statement (.refLost x0) := of_no_lines rfl

theorem refBack : Statement (.refBack) := of_no_lines rfl

theorem parityReplay {x0 x1} : Statement (.parityReplay x0 x1) := of_no_lines rfl

theorem leadingEdge {x0 x1 x2 x3} : Statement (.leadingEdge x0 x1 x2 x3) := of_no_lines rfl

theorem trailingEdge {x0 x1 x2 x3 x4} : Statement (.trailingEdge x0 x1 x2 x3 x4) := of_no_lines rfl

theorem hitLengthLimit {x0 x1 x2} : Statement (.hitLengthLimit x0 x1 x2) := of_no_lines rfl

theorem rangeSwitch {x0 x1} : Statement (.rangeSwitch x0 x1) := of_no_lines rfl

theorem peakFoundArmed {x0 x1} : Statement (.peakFoundArmed x0 x1) := of_no_lines rfl

theorem peakFound {x0 x1 x2} : Statement (.peakFound x0 x1 x2) := of_no_lines rfl

theorem resetEnd {x0 x1} : Statement (.resetEnd x0 x1) := of_no_lines rfl

theorem rearm {x0 x1} : Statement (.rearm x0 x1) := of_no_lines rfl

theorem settleEnd {x0 x1} : Statement (.settleEnd x0 x1) := of_no_lines rfl

theorem controlLaneReceive {x0 x1} : Statement (.controlLaneReceive x0 x1) := of_no_lines rfl

theorem sliceBoundary : Statement (.sliceBoundary) := of_no_lines rfl

theorem epochBoundary : Statement (.epochBoundary) := of_no_lines rfl

theorem settingSweep {x0 x1} : Statement (.settingSweep x0 x1) := of_no_lines rfl

theorem blankRise {x0 x1} : Statement (.blankRise x0 x1) := of_no_lines rfl

theorem maskStart {x0 x1} : Statement (.maskStart x0 x1) := of_no_lines rfl

theorem blankFall {x0 x1} : Statement (.blankFall x0 x1) := of_no_lines rfl

theorem maskEnd {x0 x1} : Statement (.maskEnd x0 x1) := of_no_lines rfl

theorem injectionStep {x0 x1} : Statement (.injectionStep x0 x1) := of_no_lines rfl

theorem mapArrival {x0 x1} : Statement (.mapArrival x0 x1) := of_no_lines rfl

theorem histogramFull {x0} : Statement (.histogramFull x0) := of_no_lines rfl

theorem rebuildDone {x0} : Statement (.rebuildDone x0) := of_no_lines rfl

theorem ditherEntry {x0 x1 x2} : Statement (.ditherEntry x0 x1 x2) := of_no_lines rfl

theorem ditherEnd {x0 x1} : Statement (.ditherEnd x0 x1) := of_no_lines rfl

theorem tinEdge {x0 x1 x2 x3} : Statement (.tinEdge x0 x1 x2 x3) := of_no_lines rfl

theorem tallyStamp {x0 x1 x2} : Statement (.tallyStamp x0 x1 x2) := of_no_lines rfl

theorem tallyGateOpen {x0 x1} : Statement (.tallyGateOpen x0 x1) := of_no_lines rfl

theorem tallyGateClose {x0} : Statement (.tallyGateClose x0) := of_no_lines rfl

theorem tallyResult {x0 x1} : Statement (.tallyResult x0 x1) := of_no_lines rfl

theorem differenceResult {x0} : Statement (.differenceResult x0) := of_no_lines rfl

theorem grant {x0 x1} : Statement (.grant x0 x1) := of_no_lines rfl

theorem holdSlotFreed {x0 x1 x2} : Statement (.holdSlotFreed x0 x1 x2) := of_no_lines rfl

theorem conversionComplete {x0 x1 x2 x3 x4} : Statement (.conversionComplete x0 x1 x2 x3 x4) := of_no_lines rfl

theorem referencePair {x0 x1 x2} : Statement (.referencePair x0 x1 x2) := of_no_lines rfl

theorem rotationStep {x0} : Statement (.rotationStep x0) := of_no_lines rfl

theorem fifoRst {x0 x1} : Statement (.fifoRst x0 x1) := of_no_lines rfl

theorem derandomiserWrite {x0} : Statement (.derandomiserWrite x0) := of_no_lines rfl

theorem sliceMarkerDue {x0} : Statement (.sliceMarkerDue x0) := of_no_lines rfl

theorem drRst {x0 x1} : Statement (.drRst x0 x1) := of_no_lines rfl

theorem lagRelease {x0 x1} : Statement (.lagRelease x0 x1) := of_no_lines rfl

theorem frameSend {x0 x1} : Statement (.frameSend x0 x1) := of_no_lines rfl

theorem alignmentMarker {x0 x1 x2 x3 x4} : Statement (.alignmentMarker x0 x1 x2 x3 x4) := of_no_lines rfl

theorem frameReceive {x0 x1 x2 x3} : Statement (.frameReceive x0 x1 x2 x3) := of_no_lines rfl

theorem ack {x0 x1 x2} : Statement (.ack x0 x1 x2) := of_no_lines rfl

theorem nak {x0 x1 x2} : Statement (.nak x0 x1 x2) := of_no_lines rfl

theorem ackTimeout {x0 x1} : Statement (.ackTimeout x0 x1) := of_no_lines rfl

theorem alignmentLoss {x0 x1} : Statement (.alignmentLoss x0 x1) := of_no_lines rfl

theorem markerTimeout {x0 x1} : Statement (.markerTimeout x0 x1) := of_no_lines rfl

theorem retrainingDone {x0 x1} : Statement (.retrainingDone x0 x1) := of_no_lines rfl

theorem retrainTimeout {x0 x1} : Statement (.retrainTimeout x0 x1) := of_no_lines rfl

theorem pause {x0 x1} : Statement (.pause x0 x1) := of_no_lines rfl

theorem resume {x0 x1} : Statement (.resume x0 x1) := of_no_lines rfl

theorem stepBoundary {x0} : Statement (.stepBoundary x0) := of_no_lines rfl

theorem sheafWatchdog {x0} : Statement (.sheafWatchdog x0) := of_no_lines rfl

theorem sliceRelease : Statement (.sliceRelease) := of_no_lines rfl

theorem tableReloadDone {x0} : Statement (.tableReloadDone x0) := of_no_lines rfl

theorem add {x0} : Statement (.add x0) := of_no_lines rfl

theorem sub {x0} : Statement (.sub x0) := of_no_lines rfl

theorem and {x0} : Statement (.and x0) := of_no_lines rfl

theorem or {x0} : Statement (.or x0) := of_no_lines rfl

theorem xor {x0} : Statement (.xor x0) := of_no_lines rfl

theorem shl {x0} : Statement (.shl x0) := of_no_lines rfl

theorem shr {x0} : Statement (.shr x0) := of_no_lines rfl

theorem sra {x0} : Statement (.sra x0) := of_no_lines rfl

theorem mul {x0} : Statement (.mul x0) := of_no_lines rfl

theorem min {x0} : Statement (.min x0) := of_no_lines rfl

theorem max {x0} : Statement (.max x0) := of_no_lines rfl

theorem slt {x0} : Statement (.slt x0) := of_no_lines rfl

theorem sltu {x0} : Statement (.sltu x0) := of_no_lines rfl

theorem beq {x0} : Statement (.beq x0) := of_no_lines rfl

theorem bne {x0} : Statement (.bne x0) := of_no_lines rfl

theorem addi {x0} : Statement (.addi x0) := of_no_lines rfl

theorem andi {x0} : Statement (.andi x0) := of_no_lines rfl

theorem ori {x0} : Statement (.ori x0) := of_no_lines rfl

theorem xori {x0} : Statement (.xori x0) := of_no_lines rfl

theorem shli {x0} : Statement (.shli x0) := of_no_lines rfl

theorem shri {x0} : Statement (.shri x0) := of_no_lines rfl

theorem srai {x0} : Statement (.srai x0) := of_no_lines rfl

theorem ldi {x0} : Statement (.ldi x0) := of_no_lines rfl

theorem lhi {x0} : Statement (.lhi x0) := of_no_lines rfl

theorem blt {x0} : Statement (.blt x0) := of_no_lines rfl

theorem bge {x0} : Statement (.bge x0) := of_no_lines rfl

theorem jal {x0} : Statement (.jal x0) := of_no_lines rfl

theorem jr {x0} : Statement (.jr x0) := of_no_lines rfl

theorem fex {x0} : Statement (.fex x0) := of_no_lines rfl

theorem fexs {x0} : Statement (.fexs x0) := of_no_lines rfl

theorem fins {x0} : Statement (.fins x0) := of_no_lines rfl

theorem wfex {x0} : Statement (.wfex x0) := of_no_lines rfl

theorem wfins {x0} : Statement (.wfins x0) := of_no_lines rfl

theorem wmov {x0} : Statement (.wmov x0) := of_no_lines rfl

theorem lut {x0 x1} : Statement (.lut x0 x1) := of_no_lines rfl

theorem wlut {x0 x1} : Statement (.wlut x0 x1) := of_no_lines rfl

theorem curve {x0 x1} : Statement (.curve x0 x1) := of_no_lines rfl

theorem tadd {x0} : Statement (.tadd x0) := of_no_lines rfl

theorem tsub {x0} : Statement (.tsub x0) := of_no_lines rfl

theorem rnext {x0 x1} : Statement (.rnext x0 x1) := of_no_lines rfl

theorem rctx {x0 x1} : Statement (.rctx x0 x1) := of_no_lines rfl

theorem remit {x0} : Statement (.remit x0) := of_no_lines rfl

theorem rdrop {x0} : Statement (.rdrop x0) := of_no_lines rfl

theorem rflag {x0} : Statement (.rflag x0) := of_no_lines rfl

theorem pemit {x0} : Statement (.pemit x0) := of_no_lines rfl

theorem ptest {x0} : Statement (.ptest x0) := of_no_lines rfl

theorem gain {x0} : Statement (.gain x0) := of_no_lines rfl

theorem take {x0} : Statement (.take x0) := of_no_lines rfl

theorem done {x0} : Statement (.done x0) := of_no_lines rfl

theorem sget {x0} : Statement (.sget x0) := of_no_lines rfl

theorem ctot {x0} : Statement (.ctot x0) := of_no_lines rfl

theorem ld {x0 x1} : Statement (.ld x0 x1) := of_no_lines rfl

theorem st {x0} : Statement (.st x0) := of_no_lines rfl

theorem wld {x0 x1} : Statement (.wld x0 x1) := of_no_lines rfl

theorem wst {x0} : Statement (.wst x0) := of_no_lines rfl

theorem crc {x0} : Statement (.crc x0) := of_no_lines rfl

theorem wcrc {x0} : Statement (.wcrc x0) := of_no_lines rfl

theorem fenceInstruction {x0} : Statement (.fenceInstruction x0) := of_no_lines rfl

theorem waitev {x0} : Statement (.waitev x0) := of_no_lines rfl

theorem waitevTimeout {x0} : Statement (.waitevTimeout x0) := of_no_lines rfl

theorem mail {x0} : Statement (.mail x0) := of_no_lines rfl

theorem mrecv {x0} : Statement (.mrecv x0) := of_no_lines rfl

theorem nopInstruction {x0} : Statement (.nopInstruction x0) := of_no_lines rfl

theorem nopCommand {x0} : Statement (.nopCommand x0) := of_no_lines rfl

theorem load {x0 x1} : Statement (.load x0 x1) := of_no_lines rfl

theorem table {x0 x1} : Statement (.table x0 x1) := of_no_lines rfl

theorem mode {x0} : Statement (.mode x0) := of_no_lines rfl

theorem powerActive {x0 x1} : Statement (.powerActive x0 x1) := of_no_lines rfl

theorem powerHush {x0} : Statement (.powerHush x0) := of_no_lines rfl

theorem powerRest {x0} : Statement (.powerRest x0) := of_no_lines rfl

theorem powerFallow {x0} : Statement (.powerFallow x0) := of_no_lines rfl

theorem powerFrost {x0} : Statement (.powerFrost x0) := of_no_lines rfl

theorem incr {x0} : Statement (.incr x0) := of_no_lines rfl

theorem timeStep {x0} : Statement (.timeStep x0) := of_no_lines rfl

theorem tout {x0 x1} : Statement (.tout x0 x1) := of_no_lines rfl

theorem tallyFrequency {x0} : Statement (.tallyFrequency x0) := of_no_lines rfl

theorem tallyDifference {x0} : Statement (.tallyDifference x0) := of_no_lines rfl

theorem stopTallyUnit {x0} : Statement (.stopTallyUnit x0) := of_no_lines rfl

theorem injectionStrobe {x0} : Statement (.injectionStrobe x0) := of_no_lines rfl

theorem softwareTrigger {x0} : Statement (.softwareTrigger x0) := of_no_lines rfl

theorem flush {x0 x1} : Statement (.flush x0 x1) := of_no_lines rfl

theorem conditionEnableMask {x0} : Statement (.conditionEnableMask x0) := of_no_lines rfl

theorem queryBlocks {x0} : Statement (.queryBlocks x0) := of_no_lines rfl

theorem queryIngress {x0} : Statement (.queryIngress x0) := of_no_lines rfl

theorem queryMemory {x0} : Statement (.queryMemory x0) := of_no_lines rfl

theorem queryTrigger {x0} : Statement (.queryTrigger x0) := of_no_lines rfl

theorem queryBalers {x0} : Statement (.queryBalers x0) := of_no_lines rfl

theorem queryPcie {x0} : Statement (.queryPcie x0) := of_no_lines rfl

theorem queryFodafort {x0} : Statement (.queryFodafort x0) := of_no_lines rfl

theorem queryTime {x0} : Statement (.queryTime x0) := of_no_lines rfl

theorem queryRedund {x0} : Statement (.queryRedund x0) := of_no_lines rfl

theorem queryEnviron {x0} : Statement (.queryEnviron x0) := of_no_lines rfl

theorem queryLoops {x0} : Statement (.queryLoops x0) := of_no_lines rfl

theorem queryCalq {x0} : Statement (.queryCalq x0) := of_no_lines rfl

theorem queryTable {x0} : Statement (.queryTable x0) := of_no_lines rfl

theorem queryTdcmap {x0} : Statement (.queryTdcmap x0) := of_no_lines rfl

theorem queryTally {x0} : Statement (.queryTally x0) := of_no_lines rfl

theorem querySettings {x0} : Statement (.querySettings x0) := of_no_lines rfl

theorem ringRead {x0} : Statement (.ringRead x0) := of_no_lines rfl

theorem readlog {x0} : Statement (.readlog x0) := of_no_lines rfl

theorem setwriteMonitor {x0 x1} : Statement (.setwriteMonitor x0 x1) := of_no_lines rfl

theorem setwriteLoop {x0 x1} : Statement (.setwriteLoop x0 x1) := of_no_lines rfl

theorem setwriteTimeService {x0 x1} : Statement (.setwriteTimeService x0 x1) := of_no_lines rfl

theorem setwriteLoopaLoopb {x0 x1} : Statement (.setwriteLoopaLoopb x0 x1) := of_no_lines rfl

theorem setwriteNodeWord {x0 x1} : Statement (.setwriteNodeWord x0 x1) := of_no_lines rfl

theorem setread {x0} : Statement (.setread x0) := of_no_lines rfl

theorem reply {x0} : Statement (.reply x0) := of_no_lines rfl

theorem monrun {x0} : Statement (.monrun x0) := of_no_lines rfl

theorem stage {x0 x1 x2} : Statement (.stage x0 x1 x2) := of_no_lines rfl

theorem verify {x0 x1} : Statement (.verify x0 x1) := of_no_lines rfl

theorem commit {x0 x1} : Statement (.commit x0 x1) := of_no_lines rfl

theorem activate {x0} : Statement (.activate x0) := of_no_lines rfl

theorem otp {x0 x1 x2} : Statement (.otp x0 x1 x2) := of_no_lines rfl

theorem fenceCommand {x0} : Statement (.fenceCommand x0) := of_no_lines rfl

theorem waitEpoch {x0} : Statement (.waitEpoch x0) := of_no_lines rfl

theorem waitNodeTime {x0} : Statement (.waitNodeTime x0) := of_no_lines rfl

theorem waitEvent {x0} : Statement (.waitEvent x0) := of_no_lines rfl

theorem waitTimeout {x0} : Statement (.waitTimeout x0) := of_no_lines rfl

theorem startAcquisition : Statement (.startAcquisition) := of_no_lines rfl

theorem stopAcquisition : Statement (.stopAcquisition) := of_no_lines rfl

theorem retrain : Statement (.retrain) := of_no_lines rfl

theorem returnToRefclk : Statement (.returnToRefclk) := of_no_lines rfl

theorem epochRestart : Statement (.epochRestart) := of_no_lines rfl

theorem liftFence : Statement (.liftFence) := of_no_lines rfl

theorem progevt : Statement (.progevt) := of_no_lines rfl

theorem commandFetch {x0 x1 x2} : Statement (.commandFetch x0 x1 x2) := of_no_lines rfl

theorem sqtail {x0 x1 x2} : Statement (.sqtail x0 x1 x2) := of_no_lines rfl

theorem cqhead {x0 x1 x2} : Statement (.cqhead x0 x1 x2) := of_no_lines rfl

theorem commandRingEnable {x0 x1 x2} : Statement (.commandRingEnable x0 x1 x2) := of_no_lines rfl

theorem dataRingEnable {x0 x1 x2} : Statement (.dataRingEnable x0 x1 x2) := of_no_lines rfl

theorem dcons {x0 x1 x2} : Statement (.dcons x0 x1 x2) := of_no_lines rfl

theorem econs {x0 x1 x2} : Statement (.econs x0 x1 x2) := of_no_lines rfl

theorem registerWrite {x0 x1 x2 x3 x4} : Statement (.registerWrite x0 x1 x2 x3 x4) := of_no_lines rfl

theorem causeClear {x0 x1} : Statement (.causeClear x0 x1) := of_no_lines rfl

theorem seedwrRead {x0} : Statement (.seedwrRead x0) := of_no_lines rfl

theorem stepLoRead {x0 x1} : Statement (.stepLoRead x0 x1) := of_no_lines rfl

theorem go {x0} : Statement (.go x0) := of_no_lines rfl

theorem rd {x0 x1} : Statement (.rd x0 x1) := of_no_lines rfl

theorem configurationRequest {x0 x1 x2 x3 x4} : Statement (.configurationRequest x0 x1 x2 x3 x4) := of_no_lines rfl

theorem perst {x0 x1} : Statement (.perst x0 x1) := of_no_lines rfl

theorem pciedown {x0 x1} : Statement (.pciedown x0 x1) := of_no_lines rfl

theorem completionTlp {x0 x1 x2 x3 x4} : Statement (.completionTlp x0 x1 x2 x3 x4) := of_no_lines rfl

theorem completionTimeout {x0} : Statement (.completionTimeout x0) := of_no_lines rfl

theorem pcieAck {x0} : Statement (.pcieAck x0) := of_no_lines rfl

theorem partDelivery : Statement (.partDelivery) := of_no_lines rfl

theorem serviceDelivery : Statement (.serviceDelivery) := of_no_lines rfl

theorem imodExpiry {x0} : Statement (.imodExpiry x0) := of_no_lines rfl

theorem tcmdUnit {x0 x1} : Statement (.tcmdUnit x0 x1) := of_no_lines rfl

theorem tcmdsw {x0 x1} : Statement (.tcmdsw x0 x1) := of_no_lines rfl

theorem streamEntry : Statement (.streamEntry) := of_no_lines rfl

theorem captureStart : Statement (.captureStart) := of_no_lines rfl

theorem partComplete : Statement (.partComplete) := of_no_lines rfl

theorem jobEnd {x0 x1 x2} : Statement (.jobEnd x0 x1 x2) := of_no_lines rfl

theorem lineFetch {x0 x1 x2} : Statement (.lineFetch x0 x1 x2) := of_line rfl (fun w => by simp only [Instr.wf, Bool.and_eq_true] at w; exact w.1)

theorem mergeWrite {x0 x1 x2} : Statement (.mergeWrite x0 x1 x2) := of_line rfl (fun w => by simp only [Instr.wf, Bool.and_eq_true] at w; exact w.1.1)

theorem mergeEntryIdle {x0} : Statement (.mergeEntryIdle x0) := of_line rfl id

theorem scrubRead {x0 x1 x2 x3} : Statement (.scrubRead x0 x1 x2 x3) := of_line rfl (fun w => by simp only [Instr.wf, Bool.and_eq_true] at w; exact w.1)

theorem trainingWord {x0 x1 x2 x3} : Statement (.trainingWord x0 x1 x2 x3) := of_no_lines rfl

theorem trainingTimeout {x0 x1} : Statement (.trainingTimeout x0 x1) := of_no_lines rfl

theorem backoffExpiry {x0 x1} : Statement (.backoffExpiry x0 x1) := of_no_lines rfl

theorem fodafortMarker {x0 x1 x2 x3 x4} : Statement (.fodafortMarker x0 x1 x2 x3 x4) := of_no_lines rfl

theorem wake {x0 x1} : Statement (.wake x0 x1) := of_no_lines rfl

theorem wakeTimeout {x0 x1} : Statement (.wakeTimeout x0 x1) := of_no_lines rfl

theorem dataFrame {x0 x1 x2} : Statement (.dataFrame x0 x1 x2) := of_no_lines rfl

theorem primFrame {x0 x1 x2} : Statement (.primFrame x0 x1 x2) := of_no_lines rfl

theorem fodafortAck {x0 x1 x2} : Statement (.fodafortAck x0 x1 x2) := of_no_lines rfl

theorem fodafortPause {x0 x1} : Statement (.fodafortPause x0 x1) := of_no_lines rfl

theorem fodafortResume {x0 x1} : Statement (.fodafortResume x0 x1) := of_no_lines rfl

theorem quiet {x0 x1} : Statement (.quiet x0 x1) := of_no_lines rfl

theorem pauseExpiry {x0} : Statement (.pauseExpiry x0) := of_no_lines rfl

theorem mergePauseRepeat {x0} : Statement (.mergePauseRepeat x0) := of_no_lines rfl

theorem ffnoack {x0} : Statement (.ffnoack x0) := of_no_lines rfl

theorem mergeTimeout {x0 x1} : Statement (.mergeTimeout x0 x1) := of_no_lines rfl

theorem syncInterval {x0} : Statement (.syncInterval x0) := of_no_lines rfl

theorem announceInterval : Statement (.announceInterval) := of_no_lines rfl

theorem sync {x0 x1 x2 x3 x4 x5 x6} : Statement (.sync x0 x1 x2 x3 x4 x5 x6) := of_no_lines rfl

theorem dreq {x0 x1 x2 x3 x4 x5} : Statement (.dreq x0 x1 x2 x3 x4 x5) := of_no_lines rfl

theorem dresp {x0 x1 x2} : Statement (.dresp x0 x1 x2) := of_no_lines rfl

theorem announce {x0 x1 x2} : Statement (.announce x0 x1 x2) := of_no_lines rfl

theorem exchangeTimeout {x0} : Statement (.exchangeTimeout x0) := of_no_lines rfl

theorem toutPulse {x0 x1} : Statement (.toutPulse x0 x1) := of_no_lines rfl

theorem toutPulseEnd {x0 x1} : Statement (.toutPulseEnd x0 x1) := of_no_lines rfl

theorem hubSilent {x0} : Statement (.hubSilent x0) := of_no_lines rfl

theorem stepskew {x0} : Statement (.stepskew x0) := of_no_lines rfl

theorem digest {x0 x1} : Statement (.digest x0 x1) := of_no_lines rfl

theorem localError {x0 x1} : Statement (.localError x0 x1) := of_no_lines rfl

theorem replayRelease : Statement (.replayRelease) := of_no_lines rfl

theorem driveHeld : Statement (.driveHeld) := of_no_lines rfl

theorem stileLost {x0} : Statement (.stileLost x0) := of_no_lines rfl

theorem rejoin {x0 x1} : Statement (.rejoin x0 x1) := of_no_lines rfl

theorem fifoPointerMismatch {x0 x1 x2} : Statement (.fifoPointerMismatch x0 x1 x2) := of_no_lines rfl

theorem fifoResetEnd {x0 x1} : Statement (.fifoResetEnd x0 x1) := of_no_lines rfl

theorem regularPass : Statement (.regularPass) := of_no_lines rfl

theorem monitorPhaseEnd {x0 x1 x2 x3} : Statement (.monitorPhaseEnd x0 x1 x2 x3) := of_no_lines rfl

theorem injectedTrigger {x0} : Statement (.injectedTrigger x0) := of_no_lines rfl

theorem blankPauseEnd : Statement (.blankPauseEnd) := of_no_lines rfl

theorem complianceTrip {x0 x1} : Statement (.complianceTrip x0 x1) := of_no_lines rfl

theorem lcsCrossing {x0 x1} : Statement (.lcsCrossing x0 x1) := of_no_lines rfl

theorem loopPeriod {x0 x1 x2 x3 x4} : Statement (.loopPeriod x0 x1 x2 x3 x4) := of_no_lines rfl

theorem pwmPeriod {x0} : Statement (.pwmPeriod x0) := of_no_lines rfl

theorem pwmOnEnd {x0} : Statement (.pwmOnEnd x0) := of_no_lines rfl

theorem gateWindowOpen {x0} : Statement (.gateWindowOpen x0) := of_no_lines rfl

theorem gateWindowClose {x0} : Statement (.gateWindowClose x0) := of_no_lines rfl

theorem lampNtc {x0} : Statement (.lampNtc x0) := of_no_lines rfl

theorem event : Statement (.event) := of_no_lines rfl

theorem logBatch : Statement (.logBatch) := of_no_lines rfl

theorem logSupp : Statement (.logSupp) := of_no_lines rfl

theorem haywardPoll {x0 x1 x2} : Statement (.haywardPoll x0 x1 x2) := of_no_lines rfl

theorem fwWdog : Statement (.fwWdog) := of_no_lines rfl

theorem flashFail {x0} : Statement (.flashFail x0) := of_no_lines rfl

theorem jtagInstruction {x0 x1} : Statement (.jtagInstruction x0 x1) := of_no_lines rfl

theorem xtalStop : Statement (.xtalStop) := of_no_lines rfl

theorem clkLoss {x0} : Statement (.clkLoss x0) := of_no_lines rfl

theorem refreshCommand {x0} : Statement (.refreshCommand x0) := of_no_lines rfl

theorem lineWriteDone {x0 x1} : Statement (.lineWriteDone x0 x1) := of_line rfl (fun w => by simp only [Instr.wf, Bool.and_eq_true] at w; exact w.1)

theorem pcieLinkUp {x0 x1 x2} : Statement (.pcieLinkUp x0 x1 x2) := of_no_lines rfl

theorem tcmdLock {x0} : Statement (.tcmdLock x0) := of_no_lines rfl

theorem ldgHoldEnd {x0 x1} : Statement (.ldgHoldEnd x0 x1) := of_no_lines rfl

theorem haywardUp : Statement (.haywardUp) := of_no_lines rfl

theorem flashDone : Statement (.flashDone) := of_no_lines rfl

theorem testLogicReset : Statement (.testLogicReset) := of_no_lines rfl

end Sys2Proof.Laws.Wf
end

