-- ==== Sys2Proof/Tests/Slice0.lean ====
section
/-!
SUPPORT. Tests of single commands on small states: each expected result is one that the manual gives or that was worked out by
hand from its rules, and for each statement a test shows a state and operands that meet its hypotheses, at the boundary values
of their ranges. The last part holds terms that are no commands, which the check of WellFormed refuses.
-/

namespace Sys2Proof.Tests
open Sys2Proof Sys2Proof.Machine

set_option Elab.async false

/-- The node after a command. -/
def after (i : Instr) (s : State) : State :=
  match exec i s with
  | .next t => t
  | _ => s

/-- A node in TRIGGERED, both hubs in lockstep, without a program. -/
def up : State :=
  { State.reset with
    node := { NodeCtl.init with mode := .triggered, stdone := true, otpRead := true }
    red := { Red.init with lockstep := true } }

def emptyProg : Program := ⟨[], false, 0, 0x5F5E100, 0, [], [], [], [], []⟩

/-- A node whose program's code begins with these words, and whose gleaner 0 is x. -/
def running (x : Gleaner) (words : List Nat) : State :=
  { up with
    node := { up.node with prog := some emptyProg }
    tables := [(codeTable, cellsOf (words.flatMap (leBytes 4)))]
    core := { HubCore.init with gleaners := Tbl.set Gleaner.init [] 0 x } }

/-- `State.Runs` as a test. -/
def runs (s : State) (i : Instr) (g : Nat) (w : Nat) : Bool :=
  s.issues g && s.codeWord (s.gleaner g).pc == w && (match instrForm i with
    | some f => f.g.val == g && opField w == f.op && f.legal w
    | none => false)

theorem runs_sound (s : State) (i : Instr) (g : Fin 128) (w : Nat) (h : runs s i g w = true) : s.Runs i g w := by
  unfold runs at h
  simp only [Bool.and_eq_true, beq_iff_eq] at h
  obtain ⟨⟨h1, h2⟩, h3⟩ := h
  split at h3
  · next f hf =>
    simp only [Bool.and_eq_true, beq_iff_eq] at h3
    exact ⟨h1, h2, f, hf, Fin.ext h3.1.1, h3.1.2, h3.2⟩
  · cases h3

/-- g1 = 12, g2 = -7, g3 = 5, g4 = 2^63; w0 and w1 hold a record each; no sheaf. -/
def regsX : Gleaner :=
  { Gleaner.init with
    regs := [(1, 12), (2, -7), (3, 5), (4, 0x8000000000000000)]
    wisps := [(0, 0x12587A1201A0CE547B044800), (1, 1)] }

/-- An instruction alone at PC 0, on gleaner 0 of `regsX`: it stands there as the statements ask, and gives rd this value. -/
def gives (i : Instr) (w rd : Nat) (v : BitVec 64) : Bool :=
  let s := running regsX [w]
  runs s i 0 w && ((after i s).gleaner 0).g rd == v && ((after i s).gleaner 0).pc == 4

-- Words from the formats of R152 and the opcodes of R156: op, rd, rs1, rs2, reserved.
theorem test_add : gives (.add 0) 0b000001_01000_00001_00010_00000000000 8 5 = true := by decide +kernel
theorem test_sub : gives (.sub 0) 0b000010_01000_00001_00010_00000000000 8 19 = true := by decide +kernel
theorem test_and : gives (.and 0) 0b000011_01000_00001_00010_00000000000 8 8 = true := by decide +kernel
theorem test_or : gives (.or 0) 0b000100_01000_00001_00010_00000000000 8 (-3) = true := by decide +kernel
theorem test_xor : gives (.xor 0) 0b000101_01000_00001_00010_00000000000 8 (-11) = true := by decide +kernel
theorem test_shl : gives (.shl 0) 0b000110_01000_00001_00011_00000000000 8 384 = true := by decide +kernel
theorem test_shr : gives (.shr 0) 0b000111_01000_00010_00011_00000000000 8 0x07FFFFFFFFFFFFFF = true := by decide +kernel
theorem test_sra : gives (.sra 0) 0b001000_01000_00010_00001_00000000000 8 (-1) = true := by decide +kernel
theorem test_mul : gives (.mul 0) 0b001001_01000_00001_00010_00000000000 8 (-84) = true := by decide +kernel
theorem test_min : gives (.min 0) 0b001010_01000_00001_00010_00000000000 8 (-7) = true := by decide +kernel
theorem test_max : gives (.max 0) 0b001011_01000_00001_00010_00000000000 8 12 = true := by decide +kernel
theorem test_slt : gives (.slt 0) 0b001100_01000_00010_00001_00000000000 8 1 = true := by decide +kernel
theorem test_sltu : gives (.sltu 0) 0b001101_01000_00010_00001_00000000000 8 0 = true := by decide +kernel
theorem test_addi : gives (.addi 0) 0b010000_01000_00001_1111111111111110 8 10 = true := by decide +kernel
theorem test_andi : gives (.andi 0) 0b010001_01000_00010_1111111111111111 8 0xFFF9 = true := by decide +kernel
theorem test_ori : gives (.ori 0) 0b010010_01000_00001_1000000000000001 8 0x800D = true := by decide +kernel
theorem test_xori : gives (.xori 0) 0b010011_01000_00001_0000000000000110 8 10 = true := by decide +kernel
theorem test_shli : gives (.shli 0) 0b010100_01000_00001_0000000000000100 8 192 = true := by decide +kernel
theorem test_shri : gives (.shri 0) 0b010101_01000_00100_0000000000111111 8 1 = true := by decide +kernel
theorem test_srai : gives (.srai 0) 0b010110_01000_00100_0000000000111111 8 (-1) = true := by decide +kernel
theorem test_ldi : gives (.ldi 0) 0b010111_01000_00000_1000000000000000 8 (-32768) = true := by decide +kernel
theorem test_lhi : gives (.lhi 0) 0b011000_00010_00001_0000000000000000 2 0xFFFFFFFF0000FFF9 = true := by decide +kernel
theorem test_fex : gives (.fex 0) 0b011101_01000_00010_0000010_000011_000 8 14 = true := by decide +kernel
theorem test_fexs : gives (.fexs 0) 0b011110_01000_00010_0000000_000011_000 8 (-7) = true := by decide +kernel
theorem test_fins : gives (.fins 0) 0b011111_00011_00001_0000100_000011_000 3 197 = true := by decide +kernel
theorem test_wfex : gives (.wfex 0) 0b100000_01000_00000_1010011_001000_000 8 75 = true := by decide +kernel
theorem test_tadd : gives (.tadd 0) 0b100110_01000_00001_00011_1_0000000000 8 7 = true := by decide +kernel
theorem test_tsub : gives (.tsub 0) 0b100111_01000_00011_00001_00000000000 8 (-7) = true := by decide +kernel
theorem test_gain : gives (.gain 0) 0b101111_01000_00001_00100_00000000000 8 0 = true := by decide +kernel
theorem test_ctot : gives (.ctot 0) 0b110011_01000_00001_00011_00000000000 8 12 = true := by decide +kernel
theorem test_ptest : gives (.ptest 0) 0b101110_01000_00001_00000_00000000000 8 0 = true := by decide +kernel
theorem test_sget : gives (.sget 0) 0b110010_01000_00000_0000000000001001 8 0 = true := by decide +kernel

/-! ### Gleaners: where the clauses of the statements apply -/

-- Curve T 1 with sh 4 and tadd with N, the two words that R169 spells out.
theorem test_two_words :
    (opField 0x95AD38A0, rdField 0x95AD38A0, rs1Field 0x95AD38A0, rs2Field 0x95AD38A0, crvT 0x95AD38A0, crvSh 0x95AD38A0) =
      (0x25, 13, 13, 7, 1, 4) ∧
    (opField 0x99CB6C00, rdField 0x99CB6C00, rs1Field 0x99CB6C00, rs2Field 0x99CB6C00, bitAt 0x99CB6C00 10) =
      (0x26, 14, 11, 13, true) := by decide +kernel

-- The tadd example of R160: COARSE 1, walk and skew 1,344 fine ticks, n = 1.
theorem test_tadd_example : taddOp 512 1344 true = (BitVec.ofNat 64 (8589933760 + 3 * 2 ^ 33), false) := by decide +kernel

theorem test_lhi_bounds : runs (running regsX [0b011000_00010_00011_1111111111111111]) (.lhi 0) 0 0b011000_00010_00011_1111111111111111 = true := by
  decide +kernel
theorem test_fld_bounds : -- pos + len = 64 and 128 are legal
    runs (running regsX [0b011101_01000_00010_0111111_000000_000]) (.fex 0) 0 0b011101_01000_00010_0111111_000000_000 = true ∧
    runs (running regsX [0b100000_01000_00001_1000000_111111_000]) (.wfex 0) 0 0b100000_01000_00001_1000000_111111_000 = true ∧
    runs (running regsX [0b100001_00001_00001_1000000_111111_000]) (.wfins 0) 0 0b100001_00001_00001_1000000_111111_000 = true := by
  decide +kernel
theorem test_fld_beyond : -- pos + len = 65
    ((after (.fex 0) (running regsX [0b011101_01000_00010_1000000_000000_000])).gleaner 0).fault = some (1, 0) := by decide +kernel

-- Words of a wisp, and of sget with and without a sheaf.
def sheafX : Sheaf :=
  ⟨5, 7, 12, [⟨0x12587A1201A0CE547B044800, true, true, true⟩, ⟨0x12587A1201A0CE547B044800, false, true, true⟩], 2, 1,
    [⟨0x800000000000000000000001, true, true, true⟩], true, false, true, false, true, [0], 2⟩
def holdX : Gleaner := { regsX with sheaf := some sheafX }

def wmovW : Nat := 0b100010_00001_00000_0000000000000000
def rflagW : Nat := 0b101100_00000_00001_0000000000000100
theorem test_wisps :
    runs (running regsX [wmovW]) (.wmov 0) 0 wmovW = true ∧
    ((after (.wmov 0) (running regsX [wmovW])).gleaner 0).w 1 = 0x12587A1201A0CE547B044800 ∧
    runs (running regsX [rflagW]) (.rflag 0) 0 rflagW = true ∧
    ((after (.rflag 0) (running { regsX with wisps := [(0, 0x3FFFF80000000)] } [rflagW])).gleaner 0).w 0 = 0x3FFFD80000000 := by decide +kernel
def sgetW (sel : Nat) : Nat := 0b110010_01000_00000_0000000000000000 + sel
theorem test_sget_selectors :
    [0, 1, 2, 3, 4, 5, 6, 7, 8, 9, 10].all (fun k => runs (running holdX [sgetW k]) (.sget 0) 0 (sgetW k)) = true ∧
    [0, 1, 2, 3, 4, 5, 6, 7, 8, 9, 10].map (fun k => (((after (.sget 0) (running holdX [sgetW k])).gleaner 0).g 8).toNat) =
      [5, 7, 12, 2, 1, 1, 0b10101, 7 * 4096 + 12, 2, 0, 2] ∧
    runs (running regsX [sgetW 10]) (.sget 0) 0 (sgetW 10) = true ∧
    ((after (.sget 0) (running regsX [sgetW 11])).gleaner 0).fault = some (1, 0) := by decide +kernel
theorem test_ptest_sources :
    [0b101110_01000_00001_0000000000000000, 0b101110_01000_00001_0000000000000001, 0b101110_01000_00000_0000000000000010].all
      (fun w => runs (running regsX [w]) (.ptest 0) 0 w) = true := by decide +kernel

-- The CRC-32C check value of R165.
def crcX : Gleaner := { Gleaner.init with regs := [(1, 0xFFFFFFFF), (2, 0x3837363534333231), (3, 0x39)] }
def crcW : Nat := 0b111000_00001_00001_00010_11_000000000
def crcW1 : Nat := 0b111000_00001_00001_00011_00_000000000
theorem test_crc : runs (running crcX [crcW]) (.crc 0) 0 crcW = true ∧
    (((after (.crc 0) (after (.crc 0) (running crcX [crcW, crcW1]))).gleaner 0).g 1).toNat ^^^ 0xFFFFFFFF = 0xE3069283 := by
  decide +kernel
def wcrcW : Nat := 0b111001_01000_00001_00001_00000000000
theorem test_wcrc : runs (running regsX [wcrcW]) (.wcrc 0) 0 wcrcW = true := by decide +kernel
theorem test_time_corners : -- tadd and tsub on an adjust of 0b10 and on one in range
    let x : Gleaner := { Gleaner.init with regs := [(1, 0x400000000), (3, 0x600000005)] }
    runs (running x [0b100110_01000_00001_00011_00000000000]) (.tadd 0) 0 0b100110_01000_00001_00011_00000000000 = true ∧
    (x.g 1).toNat / 2 ^ 33 % 4 = 2 ∧ (x.g 3).toNat / 2 ^ 33 % 4 = 3 ∧
    ((after (.tadd 0) (running x [0b100110_01000_00001_00011_00000000000])).gleaner 0).p 8 = true ∧
    ((after (.tsub 0) (running x [0b100111_01000_00011_00000_00000000000])).gleaner 0).g 8 = BitVec.ofInt 64 (5 - 2 ^ 33) := by
  decide +kernel

-- Branches and jumps: taken, not taken, and to outside the code area.
def goes (i : Instr) (w : Nat) (pc : BitVec 17) (fault : Option (Nat × BitVec 17)) : Bool :=
  let s := running { regsX with pc := 4 } [0xF8000000, w]
  let y := (after i s).gleaner 0
  runs s i 0 w && y.pc == pc && y.fault == fault
theorem test_branches :
    goes (.beq 0) 0b001110_00001_00001_1111111111111111 0 none = true ∧
    goes (.beq 0) 0b001110_00001_00010_1111111111111111 8 none = true ∧
    goes (.bne 0) 0b001111_00001_00010_0000000000000011 16 none = true ∧
    goes (.blt 0) 0b011001_00010_00001_0000000000000010 12 none = true ∧
    goes (.bge 0) 0b011010_00001_00001_1111111111111110 4 (some (6, BitVec.ofInt 17 (-4))) = true := by decide +kernel
theorem test_jumps :
    goes (.jal 0) 0b011011_01000_111111111111111111111 0 none = true ∧
    goes (.jr 0) 0b011100_01000_00001_00000_00000000000 12 none = true ∧
    goes (.jr 0) 0b011100_01000_00011_00000_00000000000 4 (some (6, 5)) = true ∧
    goes (.nopInstruction 0) 0xF8000000 8 none = true ∧ goes (.fenceInstruction 0) 0xE8000000 8 none = true := by decide +kernel

-- Loads and stores: the first and last address of each space, a poisoned base, the faults, the reload.
def memX (base : BitVec 64) (poison : Bool) : Gleaner :=
  { Gleaner.init with regs := [(1, base), (2, 0xFEDCBA9876543210)], pg := if poison then 2 else 0 }
def ldW (sp size : Nat) : Nat := 0b110100_01000_00001_0000000000000000 + sp * 2 ^ 14 + size * 2 ^ 12
def stW (sp size : Nat) : Nat := 0b110101_00010_00001_0000000000000000 + sp * 2 ^ 14 + size * 2 ^ 12
def wldW (sp : Nat) : Nat := 0b110110_00001_00001_0000000000000000 + sp * 2 ^ 14
def wstW (sp : Nat) : Nat := 0b110111_00001_00001_0000000000000000 + sp * 2 ^ 14
theorem test_load_forms :
    [(0, 0), (1, 1), (2, 2)].all (fun p =>
      runs (running (memX 0x600000 false) [ldW p.1 p.2]) (.ld 0 false) 0 (ldW p.1 p.2)) = true := by decide +kernel
theorem test_may_load : MayLoad 0 0xFFFC 4 ∧ MayLoad 1 0x7FFF8 8 ∧ MayLoad 2 0x600000 8 ∧ ¬MayLoad 2 0x5FFFF8 8 ∧
    ¬MayLoad 0 0xFFFE 4 ∧ MayLoad 1 0x7FFF0 16 ∧ ¬MayLoad 1 8 16 := by
  unfold MayLoad spaceBytes
  decide
theorem test_load_gives :
    let s := running (memX 8 false) [ldW 1 1, 0x80010203]
    let t := after (.ld 0 false) s
    ((s.gleaner 0).p 1 = false ∧ (t.gleaner 0).fault = none) ∧
    ((after (.ld 0 false) (running (memX 4 false) [ldW 1 1, 0x80010203])).gleaner 0).g 8 = 0xFFFFFFFF80010203 := by decide +kernel
theorem test_load_cases : -- poisoned base; parity in a table and elsewhere; ADDRESS
    ((after (.ld 0 false) (running (memX 8 true) [ldW 0 0])).gleaner 0).p 8 = true ∧
    ((running (memX 0x600000 false) [ldW 2 0]).place1 0 2 0x600000).reloads = true ∧
    ((after (.ld 0 true) (running (memX 0x600000 false) [ldW 2 0])).gleaner 0).wait = .reload ∧
    ((running (memX 8 false) [ldW 0 0]).place1 0 0 8).reloads = false ∧
    ((after (.ld 0 true) (running (memX 8 false) [ldW 0 0])).gleaner 0).p 8 = true ∧
    ((after (.ld 0 false) (running (memX 2 false) [ldW 0 0])).gleaner 0).fault = some (3, 0) := by decide +kernel
theorem test_wld_cases :
    runs (running (memX 0 false) [wldW 1]) (.wld 0 false) 0 (wldW 1) = true ∧
    ((after (.wld 0 true) (running (memX 0x67FFF0 false) [wldW 2])).gleaner 0).wait = .reload ∧
    ((after (.wld 0 true) (running (memX 0 false) [wldW 0])).gleaner 0).wp 1 = true ∧
    ((after (.wld 0 false) (running (memX 0 true) [wldW 0])).gleaner 0).sp = true ∧
    ((after (.wld 0 false) (running (memX 8 false) [wldW 0])).gleaner 0).fault = some (3, 0) := by decide +kernel
theorem test_store_gives :
    let s := running (memX 0xFFF8 false) [stW 0 2]
    runs s (.st 0) 0 (stW 0 2) = true ∧ byteAt (after (.st 0) s).gmem.bytes (storeAddr 0 0 0xFFFF) = 0xFE ∧
    byteAt (after (.st 0) s).gmem.bytes (storeAddr 0 0 0xFFF8) = 0x10 := by decide +kernel
theorem test_may_store : -- the first bytes beyond the code area and beyond the threshold table
    (running regsX []).MayStore 0 0 4 ∧ (running regsX []).MayStore 1 0x20000 8 ∧ ¬(running regsX []).MayStore 1 0x1FFF8 8 ∧
    (running regsX []).MayStore 2 0x6A8000 16 ∧ ¬(running regsX []).MayStore 2 0x6A7FF0 16 := by
  unfold State.MayStore spaceBytes
  decide +kernel
theorem test_store_faults : -- WRITE into the code area, ADDRESS off the boundary, SP on a poisoned base
    ((after (.st 0) (running (memX 0x1FFFC false) [stW 1 0])).gleaner 0).fault = some (4, 0) ∧
    ((after (.st 0) (running (memX 0x20002 false) [stW 1 0])).gleaner 0).fault = some (3, 0) ∧
    ((after (.st 0) (running (memX 0x20000 true) [stW 1 0])).gleaner 0).sp = true ∧
    ((after (.wst 0) (running (memX 0x1FFF0 false) [wstW 1])).gleaner 0).fault = some (4, 0) ∧
    ((after (.wst 0) (running (memX 8 false) [wstW 0])).gleaner 0).fault = some (3, 0) := by decide +kernel
theorem test_wst :
    runs (running (memX 0x20000 false) [wstW 1]) (.wst 0) 0 (wstW 1) = true ∧
    ((after (.wst 0) (running (memX 0x20000 true) [wstW 1])).gleaner 0).sp = true := by decide +kernel

-- Tables: the skew table, the curve example of R132 (ToT 3,301 of channel 2,635 in entries 0 to 5), a program table.
def knotsX : List Host.Cell :=
  cellsOf ([(200, 8000), (600, 5600), (1200, 3600), (2400, 2000), (4800, 960), (9600, 320)].flatMap
    (fun p => leBytes 8 (p.1 + p.2 * 2 ^ 32) ++ leBytes 8 0))
def tableX (words : List Nat) (x : Gleaner) : State :=
  let s := running x words
  { s with
    node := { s.node with prog := some { emptyProg with sizes := [(0x83, 64)], attrs := [(0x83, 3)] } }
    tables := [(idCurve, knotsX), (0x83, cellsOf (leBytes 16 (7 + 9 * 2 ^ 64)))].foldl (fun t p => Tbl.set [] t p.1 p.2)
      (Tbl.set [] s.tables idSkew (cellsOf (leBytes 4 0xFFFFFFFE))) }
def tx (i k : BitVec 64) (poison : Nat) : Gleaner := { Gleaner.init with regs := [(1, i), (2, k)], pg := BitVec.ofNat 32 poison }
def lutW (t q off : Nat) : Nat := 0b100011_01000_00001_0000000000000000 + t * 2 ^ 12 + q * 2 ^ 11 + off * 2 ^ 8
def wlutW (t : Nat) : Nat := 0b100100_00001_00001_0000000000000000 + t * 2 ^ 12
def curveW : Nat := 0b100101_01000_00001_00010_0001_0100_000
theorem test_lut :
    runs (tableX [lutW 0 0 0] (tx 0 0 0)) (.lut 0 false) 0 (lutW 0 0 0) = true ∧
    ((after (.lut 0 false) (tableX [lutW 0 0 0] (tx 0 0 0))).gleaner 0).g 8 = -2 ∧
    ((after (.lut 0 false) (tableX [lutW 3 1 0] (tx 0 0 0))).gleaner 0).g 8 = 9 ∧
    ((after (.lut 0 true) (tableX [lutW 0 0 7] (tx 4088 0 0))).gleaner 0).wait = .reload := by decide +kernel
theorem test_lut_faults :
    (tableX [] (tx 0 0 0)).desc 4 = none ∧
    ((after (.lut 0 false) (tableX [lutW 4 0 0] (tx 0 0 0))).gleaner 0).fault = some (5, 0) ∧
    ((after (.lut 0 false) (tableX [lutW 0 0 0] (tx 4096 0 0))).gleaner 0).fault = some (5, 0) ∧
    ((after (.lut 0 false) (tableX [lutW 0 1 0] (tx 0 0 0))).gleaner 0).fault = some (5, 0) ∧
    ((after (.lut 0 false) (tableX [lutW 0 0 0] (tx 0 0 2))).gleaner 0).sp = true := by decide +kernel
theorem test_wlut :
    runs (tableX [wlutW 3] (tx 3 0 0)) (.wlut 0 false) 0 (wlutW 3) = true ∧
    ((after (.wlut 0 false) (tableX [wlutW 3] (tx 0 0 0))).gleaner 0).w 1 = BitVec.ofNat 128 (7 + 9 * 2 ^ 64) ∧
    ((after (.wlut 0 true) (tableX [wlutW 3] (tx 3 0 0))).gleaner 0).wait = .reload := by decide +kernel
theorem test_wlut_faults :
    ((after (.wlut 0 false) (tableX [wlutW 3] (tx 4 0 0))).gleaner 0).fault = some (5, 0) ∧
    ((after (.wlut 0 false) (tableX [wlutW 4] (tx 0 0 0))).gleaner 0).fault = some (5, 0) ∧
    ((after (.wlut 0 false) (tableX [wlutW 3] (tx 0 0 2))).gleaner 0).sp = true := by decide +kernel
theorem test_curve :
    runs (tableX [curveW] (tx 3301 0 0)) (.curve 0 false) 0 curveW = true ∧
    ((after (.curve 0 false) (tableX [curveW] (tx 3301 0 0))).gleaner 0).g 8 = 101 ∧
    ((after (.curve 0 false) (tableX [curveW] (tx 200 0 0))).gleaner 0).g 8 = 500 ∧
    ((after (.curve 0 false) (tableX [curveW] (tx 9600 0 0))).gleaner 0).g 8 = 20 ∧
    ((after (.curve 0 true) (tableX [curveW] (tx 9600 32762 0))).gleaner 0).wait = .reload := by decide +kernel
theorem test_curve_faults :
    ((after (.curve 0 false) (tableX [curveW] (tx 0 32763 0))).gleaner 0).fault = some (5, 0) ∧
    ((after (.curve 0 false) (tableX [curveW + 2 ^ 9] (tx 0 0 0))).gleaner 0).fault = some (5, 0) ∧
    ((after (.curve 0 false) (tableX [curveW] (tx 0 0 4))).gleaner 0).sp = true := by decide +kernel

-- Illegal words, and commands for instructions that do not stand there.
theorem test_illegal :
    (running regsX [0b000001_01000_00001_00010_00000000001]).issues 0 = true ∧
    ((after (.add 0) (running regsX [0b000001_01000_00001_00010_00000000001])).gleaner 0).fault = some (1, 0) ∧
    after (.sub 0) (running regsX [0x04000000]) = running regsX [0x04000000] ∧
    (running { regsX with fenced := true } [0x04000000]).issues 0 = false := by decide +kernel

-- Sheaf state, and the records.
def rnextW : Nat := 0b101000_01000_00001_0000000000000000
def rctxW : Nat := 0b101001_01000_00001_00010_00000000000
def rdropW : Nat := 0b101011_00000_00001_0000000000000000
def remitW : Nat := 0b101010_00000_00001_0000000000000000
def pemitW : Nat := 0b101101_00000_00001_0000000000000000
def takeW : Nat := 0xC0000000
def doneW : Nat := 0xC4000000
theorem test_state_faults :
    [(Instr.rnext 0 0, rnextW), (.rctx 0 0, rctxW), (.rdrop 0, rdropW), (.remit 0, remitW), (.pemit 0, pemitW), (.done 0, doneW)].all
      (fun p => runs (running regsX [p.2]) p.1 0 p.2 && ((after p.1 (running regsX [p.2])).gleaner 0).fault == some (2, 0)) = true ∧
    runs (running regsX [takeW]) (.take 0) 0 takeW = true ∧ ((after (.take 0) (running regsX [takeW])).gleaner 0).wait = .take ∧
    ((after (.take 0) (running holdX [takeW])).gleaner 0).fault = some (2, 0) := by decide +kernel
theorem test_rnext :
    runs (running holdX [rnextW]) (.rnext 0 0) 0 rnextW = true ∧
    ((after (.rnext 0 0) (running holdX [rnextW])).gleaner 0).w 1 = BitVec.ofNat 128 (0x1A4B0000 * 2 ^ 96 + 0x12587A1201A0CE547B044800) ∧
    ((after (.rnext 0 0) (running { holdX with cursor := 1 } [rnextW])).gleaner 0).wp 1 = true ∧
    ((after (.rnext 0 0) (running { holdX with cursor := 2 } [rnextW])).gleaner 0).g 8 = 0 := by decide +kernel
theorem test_rctx :
    let at_ := fun (v : BitVec 64) (p : BitVec 32) => running { holdX with regs := [(2, v)], pg := p } [rctxW]
    runs (at_ 0 0) (.rctx 0 0) 0 rctxW = true ∧ ((after (.rctx 0 0) (at_ 0 0)).gleaner 0).g 8 = 8 ∧
    ((after (.rctx 0 0) (at_ 1 0)).gleaner 0).g 8 = 0 ∧ ((after (.rctx 0 0) (at_ 0 4)).gleaner 0).wp 1 = true := by decide +kernel
theorem test_rdrop :
    runs (running holdX [rdropW]) (.rdrop 0) 0 rdropW = true ∧
    ((after (.rdrop 0) (running holdX [rdropW])).gleaner 0).cursor = 2 ∧
    ((after (.rdrop 0) (running { holdX with pg := 2 } [rdropW])).gleaner 0).sp = true := by decide +kernel

-- Output: a page to take, none to take, room on the page, the limit.
def outX (out pages used : Nat) : State :=
  let s := running { holdX with out := List.replicate out 0, pages := pages } [remitW]
  { s with core := { s.core with usedOut := used } }
theorem test_remit :
    runs (outX 0 0 0) (.remit 0) 0 remitW = true ∧ ((after (.remit 0) (outX 0 0 191)).gleaner 0).pages = 1 ∧
    ((after (.remit 0) (outX 1 1 0)).gleaner 0).out.length = 2 ∧ after (.remit 0) (outX 0 0 192) = outX 0 0 192 := by decide +kernel
theorem test_remit_next : -- the sheaf of the slice to be released next may take the last pages
    let s := outX 0 0 447
    let s : State := { s with core := { s.core with nextSl := 7 * 4096 + 12 } }
    ((after (.remit 0) s).gleaner 0).pages = 1 := by decide +kernel
theorem test_pemit :
    runs (running holdX [pemitW]) (.pemit 0) 0 pemitW = true ∧
    ((after (.pemit 0) (running holdX [pemitW])).gleaner 0).prims = [12] ∧
    ((after (.pemit 0) (running { holdX with sp := true } [pemitW])).gleaner 0).pdrop = 1 := by decide +kernel
theorem test_done :
    runs (running holdX [doneW]) (.done 0) 0 doneW = true ∧ ((after (.done 0) (running holdX [doneW])).gleaner 0).sheaf = none ∧
    (after (.done 0) (running holdX [doneW])).core.done.length = 1 := by decide +kernel

-- waitev, its timeout, mail, mrecv and the reload.
def waitevW : Nat := 0b111011_01000_00001_0000000000000010
def mailW : Nat := 0b111100_00000_00001_00010_00000000000
def mrecvW : Nat := 0b111101_01000_00000_00000_00000000000
theorem test_waitev :
    runs (running regsX [waitevW]) (.waitev 0) 0 waitevW = true ∧
    ((after (.waitev 0) (running { regsX with replies := [9] } [waitevW])).gleaner 0).g 8 = 2 ∧
    ((after (.waitev 0) (running regsX [waitevW])).gleaner 0).wait = .event 2 8 := by decide +kernel
theorem test_waitev_timeout :
    let s := running { regsX with wait := .event 2 8 } [waitevW]
    s.awake = true ∧ s.gleanerUp 0 = true ∧ ((after (.waitevTimeout 0) s).gleaner 0).wait = .run := by decide +kernel
theorem test_mail :
    let m : Mail := ⟨0, 0, 0, 0, false⟩
    let full : State := { running regsX [mailW] with core := { (running regsX [mailW]).core with mailbox := List.replicate 64 m } }
    runs (running regsX [mailW]) (.mail 0) 0 mailW = true ∧ (after (.mail 0) (running regsX [mailW])).core.mailbox.length = 1 ∧
    runs full (.mail 0) 0 mailW = true ∧ after (.mail 0) full = full := by decide +kernel
theorem test_mrecv :
    runs (running regsX [mrecvW]) (.mrecv 0) 0 mrecvW = true ∧ after (.mrecv 0) (running regsX [mrecvW]) = running regsX [mrecvW] ∧
    ((after (.mrecv 0) (running { regsX with replies := [9, 8] } [mrecvW])).gleaner 0).g 8 = 9 := by decide +kernel
def swept (s : State) : State := { s with ring := { s.ring with swept := true } }
theorem test_reload :
    let at_ := fun (w : Nat) => swept (tableX [w] { tx 3 0 0 with wait := .reload })
    (at_ (lutW 0 0 0)).loaded = true ∧
    [lutW 0 0 0, wlutW 3, curveW, ldW 1 0, wldW 1].map (fun w => opField w) = [0x23, 0x24, 0x25, 0x34, 0x36] ∧
    [lutW 0 0 0, wlutW 3, curveW, ldW 1 0, wldW 1].all (fun w =>
      ((after (.tableReloadDone 0) (at_ w)).gleaner 0).wait == .run) = true := by decide +kernel
-- A line of the table store with POISON set (bit 12 of the header at byte 112, R202), and the one that holds address 0 of the code.
def poisoned : Line := BitVec.ofNat 1024 (2 ^ (896 + 12))
def codeLine : Nat := 49807360
def fetchX (l : List (Nat × Line)) : State :=
  let s := swept (running regsX [0xF8000000])
  { s with
    node := { s.node with prog := some { emptyProg with code := [0, 0, 0, 0xF8] } }
    ring := { s.ring with lines := l } }
theorem test_reload_fetch :
    (fetchX []).copyStart codeTable = some codeLine ∧
    ((after (.tableReloadDone 0) (fetchX [(codeLine, poisoned)])).gleaner 0).fault = some (6, 0) ∧
    after (.tableReloadDone 0) (fetchX []) = fetchX [] := by decide +kernel
theorem test_reload_poisoned : -- the read completes poisoned, and the reload counts
    let s := swept (tableX [wlutW 3] { tx 3 0 0 with wait := .reload })
    let s : State := { s with ring := { s.ring with lines := [(codeLine, poisoned)] } }
    let t := after (.tableReloadDone 0) s
    s.reloadPoisoned 0 = true ∧ (t.gleaner 0).wp 1 = true ∧ (t.gleaner 0).wait = .run ∧ (t.gleaner 0).pc = 4 ∧
    t.count (figMem .a 4) = 1 := by decide +kernel
theorem test_isolated : instrForm (.st 5) = some ⟨5, 0x35, fun w => memSp w != 3 && memSize w != 3⟩ := rfl

/-! ### Cells and TDCs -/

/-- A channel cell enabled, in HG, LG or AUO as asked: EN at bit 31, GAIN in bits 30:29 (R34). -/
def cellG (gain : Nat) (ph : CellPhase) : Cell :=
  { Cell.init with word := Trip.all (BitVec.ofNat 32 (0x8FFCCC00 + gain * 2 ^ 29)), phase := ph }
/-- A node in the middle of epoch 0, with this cell at channel 0. -/
def cellN (c : Cell) : State := ({ up with clock := { Clock.init with slice := 5 } } : State).setCell 0 c
def held0 : Held := ⟨0, 0, 0, 0, 0, false, 0, 0, false⟩
def fullCell (c : Cell) : Cell := { c with slot0 := some held0, slot1 := some held0, slot2 := some held0, slot3 := some held0 }

theorem test_edge_ignored :
    (cellN Cell.init).awake = true ∧ (Cell.init).word.vote.getLsbD 31 = false ∧
    after (.leadingEdge 0 0 0 false) (cellN { cellG 0 .armed with disc := true }) = cellN { cellG 0 .armed with disc := true } := by
  decide +kernel
theorem test_edge_blocked :
    let s := cellN (cellG 0 .waitSlot)
    s.awake = true ∧ (cellG 0 .waitSlot).word.vote.getLsbD 31 = true ∧ (s.cell 0).disc = false ∧
    ((after (.leadingEdge 0 9 100 false) s).cell 0).disc = true ∧ (after (.leadingEdge 0 9 100 false) s).count (figBlocks 1 0) = 1 := by
  decide +kernel
theorem test_edge_starts : -- under the generated seed map of R177 code 0 has the fine value 511
    let s := cellN (cellG 0 .armed)
    s.masked 0 = false ∧ (s.fe 0).stopped = false ∧ (s.cell 0).settle = none ∧ (s.cell 0).dither = none ∧
    ((after (.leadingEdge 0 9 0 false) s).cell 0).phase = .hit ∧ ((after (.leadingEdge 0 9 0 false) s).cell 0).start = 5 * 4096 + 9 ∧
    ((after (.leadingEdge 0 9 0 false) s).cell 0).startFine = 511 := by decide +kernel
theorem test_edge_bad_map :
    let t := after (.leadingEdge 0 9 0 true) (cellN (cellG 0 .armed))
    (t.tdc 0).bad = true ∧ t.lane 0 .a = [.seedMap 0 false] ∧ (t.cell 0).startBad = true := by decide +kernel
-- ToT 3,301 of the worked example: 25 coarse ticks, fine 104 to 509.
def hitC : Cell := { cellG 0 .hit with start := 5 * 4096, startFine := 104, disc := true }
theorem test_tot_corners :
    (cellN hitC).live = true ∧ hitC.freeSlot = some 0 ∧
    totOf (25 * 512 + 509 - 104) = (3301, 0x04) ∧ totOf (-1) = (0, 0x10) ∧ totOf 0 = (0, 0x08) ∧ totOf 3 = (0, 0x08) ∧
    totOf 4 = (1, 0x04) ∧ totOf 65531 = (16382, 0x04) ∧ totOf 65532 = (16383, 0x44) := by decide +kernel
theorem test_trailing_edge :
    let t := after (.trailingEdge 0 25 0 1000000 false) (cellN hitC)
    ((t.cell 0).slot 0).map (fun h => (h.tot, h.flags, h.peak)) = some ((25 * 512 + 511 - 104) / 4, 0x04, 1000000) ∧
    (t.cell 0).phase = .reset ∧ (t.cell 0).resetAt = 4 * ((5 * 4096 + 25) / 4 + 2) + (3 + 1) * 32 := by decide +kernel
theorem test_trailing_edge_bad : ((after (.trailingEdge 0 25 511 7 true) (cellN hitC)).tdc 0).bad = true := by decide +kernel
theorem test_trailing_edge_idle : ((after (.trailingEdge 0 25 511 7 false) (cellN { hitC with phase := .settling })).cell 0).disc = false := by
  decide +kernel
theorem test_hit_limit : -- at the limit's tick, 4 × (start / 4 + HITLIM)
    let s := cellN hitC
    let at_ : BitVec 12 := 256
    4 * (hitC.start / 4 + hitC.hitlim) ≤ s.coarse at_ ∧
    (((after (.hitLengthLimit 0 at_ 5) s).cell 0).slot 0).map (fun h => (h.tot, h.flags)) = some (16383, 0x44) ∧
    after (.hitLengthLimit 0 255 5) s = s ∧
    (((after (.hitLengthLimit 0 at_ 5) (cellN { hitC with phase := .switched })).cell 0).slot 0).map (fun h => (h.tot, h.flags)) =
      some (0, 0x03) := by decide +kernel
theorem test_peak_found :
    (((after (.peakFound 0 40 123) (cellN { hitC with phase := .peakArmed })).cell 0).slot 0).map (fun h => (h.tot, h.flags, h.peak)) =
      some (0, 0x03, 123) := by decide +kernel
theorem test_cell_timers :
    ((after (.rangeSwitch 0 20) (cellN (cellG 2 .hit))).cell 0).phase = .switched ∧
    after (.rangeSwitch 0 20) (cellN (cellG 0 .hit)) = cellN (cellG 0 .hit) ∧
    ((after (.peakFoundArmed 0 28) (cellN { cellG 2 .switched with switchAt := some (5 * 4096 + 20) })).cell 0).phase = .peakArmed ∧
    ((after (.peakFoundArmed 0 27) (cellN { cellG 2 .switched with switchAt := some (5 * 4096 + 20) })).cell 0).phase = .switched := by
  decide +kernel
def resetC : Cell := { cellG 0 .reset with resetAt := 5 * 4096 + 100 }
theorem test_reset_end :
    ((after (.resetEnd 0 100) (cellN resetC)).cell 0).phase = .settling ∧
    ((after (.resetEnd 0 100) (cellN resetC)).cell 0).rearmAt = 5 * 4096 + 107 ∧
    ((after (.resetEnd 0 100) (cellN { resetC with due := some 0x80000000 })).cell 0).word.vote = 0x80000000 ∧
    ((after (.resetEnd 0 100) (cellN { resetC with waitRegion := some (3, 9) })).cell 0).hitlim = 9 := by decide +kernel
theorem test_rearm :
    ((after (.rearm 0 100) (cellN { cellG 0 .settling with rearmAt := 5 * 4096 + 100 })).cell 0).phase = .armed ∧
    ((after (.rearm 0 100) (cellN (fullCell { cellG 0 .settling with rearmAt := 5 * 4096 + 100 }))).cell 0).phase = .waitSlot ∧
    ((after (.settleEnd 0 100) (cellN { cellG 0 .armed with settle := some (5 * 4096 + 100) })).cell 0).settle = none ∧
    ((after (.ditherEnd 0 100) (cellN { cellG 0 .armed with dither := some (5 * 4096 + 100) })).cell 0).dither = none := by decide +kernel

def tdcN (m : ChanTdc) : State := up.setTdc 0 m
theorem test_map_arrival :
    let s := (tdcN { ChanTdc.init with bad := true }).setFe 0 { Fe.init with mapIn := [(0, false)] }
    ((after (.mapArrival 0 true) s).tdc 0).waiting = some ⟨true, false, s.seedMap 0, 0⟩ ∧ ((after (.mapArrival 0 true) s).fe 0).mapIn = [] ∧
    ((after (.mapArrival 0 true) (s.setTdc 0 { ChanTdc.init with guard := 3 })).tdc 0).outside = some ⟨true, false, s.seedMap 0, 0⟩ ∧
    ((after (.mapArrival 0 false) (tdcN { ChanTdc.init with outside := some ⟨false, false, none, 7⟩ })).tdc 0).waiting = some ⟨false, false, none, 7⟩ := by
  decide +kernel
theorem test_histogram_full :
    ((after (.histogramFull 0) (tdcN { ChanTdc.init with hist := [(3, 65536)], total := 65536 })).tdc 0).rebuild = some [(3, 65536)] ∧
    after (.histogramFull 0) (tdcN { ChanTdc.init with total := 65535 }) = tdcN { ChanTdc.init with total := 65535 } := by decide +kernel
theorem test_rebuild_done : -- while a seed map waits; a hypothesis of each other case holds of the same map without it
    let m : ChanTdc := { ChanTdc.init with rebuild := some [(3, 65536)] }
    ((after (.rebuildDone 0) (tdcN { m with waiting := some ⟨true, true, none, 0⟩ })).tdc 0).rebuild = none ∧
    m.waiting = none ∧ m.outside = none ∧ m.guard = 0 := by decide +kernel
theorem test_dither :
    let s := (cellN (cellG 0 .armed)).setTdc 0 { ChanTdc.init with seed := false, rebuilds := 0 }
    s.node.pstate = .active ∧ (s.cell 0).disc = false ∧ s.masked 0 = false ∧ s.dithered 0 = true ∧
    ((after (.ditherEntry 0 8 300) s).cell 0).dither = some (5 * 4096 + 12) ∧
    Tbl.get 0 ((after (.ditherEntry 0 8 300) s).tdc 0).hist 300 = 1 := by decide +kernel

-- What a die receives.
def laneN (h : Hub) (l : List LaneMsg) : State := up.setLane 0 h l
theorem test_lane_messages :
    ((after (.controlLaneReceive 0 .a) (laneN .a [.ack 3, .setting 1 0x80000000])).cell 1).waiting = some 0x80000000 ∧
    ((after (.controlLaneReceive 0 .a) (laneN .a [.region 9])).fe 0).regionWait = some 9 ∧
    ((after (.controlLaneReceive 0 .a) (laneN .a [.tdcCtl 9])).fe 0).tdcWait = some 9 ∧
    ((after (.controlLaneReceive 0 .a) (laneN .a [.feCtl 9])).fe 0).feWait = some 9 ∧
    ((after (.controlLaneReceive 0 .a) (laneN .a [.atime 9])).fe 0).atime = 9 := by decide +kernel
theorem test_lane_links :
    ((after (.controlLaneReceive 0 .a) (laneN .a [.strobe])).fe 0).strobe = true ∧
    ((after (.controlLaneReceive 0 .a) (laneN .a [.seedMap 5 true])).fe 0).mapIn = [(5, true)] ∧
    ((after (.controlLaneReceive 0 .b) (laneN .b [.region 9])).fe 0).regionWait = none ∧
    (((after (.controlLaneReceive 0 .b) (laneN .b [.retrain])).fe 0).link .b).heard = true ∧
    (((after (.controlLaneReceive 0 .b) (laneN .b [.failure])).fe 0).link .b).failed = true := by decide +kernel
theorem test_sweep_upset : -- one copy of the region word (entry 512) upset
    let s := up.setFe 0 { Fe.init with sweep := true }
    let t := after (.settingSweep 0 [(512, 1, 0xFFFF)]) s
    (∀ ch, ch ∈ [0, 511] → (s.cell ch).word.torn = false) ∧ (s.fe 0).region.torn = false ∧
    (t.fe 0).region = (s.fe 0).region ∧ (t.fe 0).sweep = false ∧ t.hay.fifo.map (·.code) = [0x1001] := by decide +kernel

-- Blanking and injection.
def feN (f : Fe) : State := { up.setFe 0 f with clock := { Clock.init with slice := 5 } }
theorem test_blank :
    ((after (.blankRise 5 0) (feN Fe.init)).fe 0).maskAt = [5 * 4096 + 56] ∧
    ((after (.blankRise 5 0b10) (feN Fe.init)).fe 1).maskAt = [5 * 4096 + 64] ∧
    ((after (.blankRise 5 0) (feN { Fe.init with mask := true, maskEnd := [1], region := Trip.all 0x8000000000 })).node.blank) = true ∧
    ((after (.blankFall 5 0) { feN Fe.init with node := { up.node with blank := true } }).fe 0).maskEnd = [5 * 4096 + 56] := by
  decide +kernel
theorem test_mask :
    let f : Fe := { Fe.init with region := Trip.all (1 <<< 53), maskAt := [5 * 4096 + 56] }
    ((after (.maskStart 0 56) (feN f)).fe 0).eventQ.length = 1 ∧ after (.maskStart 0 55) (feN f) = feN f ∧
    ((after (.maskEnd 0 56) (feN { f with mask := true, maskEnd := [5 * 4096 + 56] })).fe 0).mask = false ∧
    ((after (.maskEnd 0 56) (feN { f with mask := true, maskEnd := [5 * 4096 + 56] })).block 0).idleFrom = 5 * 4096 + 56 := by
  decide +kernel
theorem test_injection :
    let f : Fe := { Fe.init with injDue := [20000] }
    let s := feN f
    20000 ≤ s.coarse 0 ∧ ((after (.injectionStep 0 0) s).fe 0).injAt = some 20000 ∧
    ((after (.injectionStep 0 0) (feN { f with injAt := some (20000 - 5120) })).fe 0).injAt = some 20000 ∧
    (after (.injectionStep 0 0) (feN { f with injAt := some (20000 - 5119) })).hay.fifo.map (·.code) = [0x1003] ∧
    ((after (.injectionStep 0 0) (feN { f with tpdacAt := some (20000 - 2559) })).fe 0).injDue = [20001] := by decide +kernel

/-! ### Blocks, regions and region links -/

def rec0 : FeRec := ⟨0x100000000000000000000000, none, 0⟩
def rec1 : FeRec := ⟨0x100000000000000000000001, none, 0⟩
def convH : Held := { held0 with start := 20480, fine := 104, tot := 3301, flags := 0x04, peak := 1000000 }

theorem test_grant :
    let s := cellN { cellG 0 .reset with slot2 := some convH }
    s.node.pstate = .active ∧ (s.block 0).freeSlice (5 * 4096 + 8) = some 0 ∧ s.nextCell 0 63 (5 * 4096 + 8) = some (0, 2, convH) ∧
    ((((after (.grant 0 8) s).block 0).slice 0).conv.map (fun c => (c.cell, c.slot, c.granted))) = some (0, 2, 5 * 4096 + 8) ∧
    ((after (.grant 0 8) s).block 0).reserved = 1 := by decide +kernel
def convN (freed : Bool) (ph : CellPhase) : State :=
  (cellN { cellG 0 ph with slot2 := some { convH with granted := true } }).setBlock 0
    { Block.init with
      reserved := 1
      slices := [(3, { AdcSlice.init with conv := some ⟨0, 2, convH, 20480, false, 0, freed, false⟩ })] }
theorem test_hold_freed : -- 36 ticks after the grant
    ((after (.holdSlotFreed 0 3 36) (convN false .waitSlot)).cell 0).slot 2 = none ∧
    ((after (.holdSlotFreed 0 3 36) (convN false .waitSlot)).cell 0).phase = .armed ∧
    ((after (.holdSlotFreed 0 3 36) (convN false .reset)).cell 0).phase = .reset ∧
    after (.holdSlotFreed 0 3 35) (convN false .reset) = convN false .reset := by decide +kernel
theorem test_conversion :
    let t := after (.conversionComplete 0 3 256 0 0) (convN true .reset)
    (t.block 0).fifo.length = 1 ∧ (t.block 0).reserved = 0 ∧ ((t.block 0).slice 3).conv = none ∧
    after (.conversionComplete 0 3 255 0 0) (convN true .reset) = convN true .reset := by decide +kernel
-- The worked record of R102: LCHAN 75, coarse 1,000,000, fine 104, ToT 3,301, AMP 1,147, flags 0x04, ADC slice 9.
theorem test_record_example :
    hitRecord 75 1000000 104 3301 1147 4 9 = 0x12587A1201A0CE547B044800 ∧ lineMark 10052656 1 = 0x26590C04 := by decide +kernel
def blkN (b : Block) : State := cellN Cell.init |>.setBlock 0 b
theorem test_reference_pair :
    (blkN Block.init).masked 0 = false ∧ (Block.init).freeSlice (5 * 4096) ≠ none ∧
    ((after (.referencePair 0 0 17) (blkN Block.init)).block 0).pairs.sx = 17 ∧
    after (.referencePair 0 0 17) (blkN { Block.init with idleFrom := 5 * 4096 - 255 }) = blkN { Block.init with idleFrom := 5 * 4096 - 255 } := by
  decide +kernel
theorem test_rotation : -- a determined fit, an undetermined one, too few pairs
    let p : PairSums := ⟨4096, 4096, 4096, 8192, 8192, 0⟩
    p.n * p.sxx - p.sx * p.sx ≠ 0 ∧ (p.n : Int) * 4096 - p.sx * p.sx = 0 ∧
    ((after (.rotationStep 0) (blkN { Block.init with pairs := p })).block 0).offline = 0 ∧
    after (.rotationStep 0) (blkN { Block.init with pairs := { p with n := 4095 } }) = blkN { Block.init with pairs := { p with n := 4095 } } := by
  decide +kernel
theorem test_fifo_reset :
    let t := after (.fifoRst 0 8) (blkN { Block.init with fifo := [rec0, rec1], reserved := 1 })
    (t.block 0).fifo = [] ∧ (t.block 0).resetTo = 5 * 4096 + 24 ∧ (t.fe 0).lossQ.map (·.bits) = [lossRecord 0 (5 * 4096 + 8) 3] := by
  decide +kernel

theorem test_arbiter_order :
    let s := fun (l e : List FeRec) => blkN { Block.init with fifo := [rec1] } |>.setFe 0 { Fe.init with lossQ := l, eventQ := e }
    ((after (.derandomiserWrite 0) (s [rec0, rec0] [rec1])).fe 0).dr = [rec0, rec0] ∧
    ((after (.derandomiserWrite 0) (s [rec0] [rec1])).fe 0).dr = [rec0, rec1] ∧
    ((after (.derandomiserWrite 0) (s [] [rec0, rec1])).fe 0).dr = [rec0, rec1] ∧
    ((after (.derandomiserWrite 0) (s [] [])).fe 0).dr = [rec1] ∧
    ((after (.derandomiserWrite 0) ((s [] []).setBlock 3 { Block.init with fifo := [rec0] })).fe 0).dr = [rec1, rec0] := by decide +kernel
theorem test_arbiter_idle : after (.derandomiserWrite 0) (feN Fe.init) = feN Fe.init ∧ (Fe.init).linkA.failed = false := by decide +kernel
theorem test_full_derandomiser (n : Nat) : n ≤ ({ Fe.init with dr := List.replicate n rec0 } : Fe).dr.length :=
  Nat.le_of_eq List.length_replicate.symm
theorem test_slice_marker :
    (feN Fe.init).holdsSlice 0 4 = false ∧
    ((after (.sliceMarkerDue 0) (feN { Fe.init with nextMarker := 4, counts := [(4, 7)] })).fe 0).dr.map (·.bits) =
      [BitVec.ofNat 96 (3 * 2 ^ 92 + 4 * 2 ^ 48 + 7 * 2 ^ 24)] ∧
    after (.sliceMarkerDue 0) (feN { Fe.init with nextMarker := 5 }) = feN { Fe.init with nextMarker := 5 } := by decide +kernel
theorem test_dr_reset :
    let t := after (.drRst 0 8) (feN { Fe.init with dr := [rec0, rec1, rec0], linkA := { RLink.init with read := 1 } })
    (t.fe 0).dr = [] ∧ (t.fe 0).drBase = 3 ∧ (t.fe 0).lossQ.map (·.bits) = [lossRecord 8 (5 * 4096 + 8) 2] := by decide +kernel
theorem test_lag_release : -- LAG 0: one record of difference, the other link having sent and been acknowledged; LAG 8: none
    let f : Fe := { Fe.init with feCtl := 0, dr := [rec0], linkA := { RLink.init with read := 1 } }
    (feN f).node.simplex = false ∧ f.backlog .a + f.lag * 8192 < f.backlog .b ∧
    ((after (.lagRelease 0 .b) (feN f)).fe 0).linkB.failed = true ∧
    after (.lagRelease 0 .b) (feN { f with feCtl := feCtlAtSeed }) = feN { f with feCtl := feCtlAtSeed } := by decide +kernel

def frame0 (seq : BitVec 12) : Frame := ⟨seq, List.replicate 42 0, false, 42, 42, 1⟩
def linkN (l : RLink) (lane : List LaneMsg) : State := (feN { Fe.init with dr := [rec0], linkA := l }).setLane 0 .a lane
theorem test_frame_send :
    (((after (.frameSend 0 .a) (linkN RLink.init [])).fe 0).linkA.wire.map (fun x => (x.seq, x.recs.length))) = [(0, 42)] ∧
    (((after (.frameSend 0 .a) (linkN { RLink.init with resend := [frame0 9] } [])).fe 0).linkA.wire.map (·.sent)) = [2] ∧
    after (.frameSend 0 .a) (linkN { RLink.init with paused := true } []) = linkN { RLink.init with paused := true } [] ∧
    after (.frameSend 0 .a) (linkN { RLink.init with replay := List.replicate 32 (frame0 0) } []) =
      linkN { RLink.init with replay := List.replicate 32 (frame0 0) } [] ∧
    ((after (.alignmentMarker 0 .a [0, 1, 2, 3] [5, 5, 5, 5] 32) (linkN RLink.init [])).fe 0).linkA.marker = 1 := by decide +kernel
theorem test_markers : -- a first disagreement, the second in a row, lanes in the wrong places, a skew of 33 blocks
    let m := fun (l : RLink) (lanes : List (BitVec 2)) (seqs : List (BitVec 16)) (skew : Nat) =>
      after (.alignmentMarker 0 .a lanes seqs skew) (linkN l [])
    (m RLink.init [0, 1, 2, 3] [5, 5, 6, 5] 0).lane 0 .a = [] ∧
    (m { RLink.init with torn := true } [0, 1, 2, 3] [5, 5, 6, 5] 0).lane 0 .a = [.retrain] ∧
    (m { RLink.init with torn := true } [0, 2, 1, 3] [5, 5, 5, 5] 0).lane 0 .a = [.retrain] ∧
    (m RLink.init [0, 1, 2, 3] [5, 5, 5, 5] 33).lane 0 .a = [.retrain] := by decide +kernel
def wireL : RLink := { RLink.init with wire := [frame0 0], expect := 0 }
theorem test_frame_receive :
    (after (.frameReceive 0 .a 0 []) (linkN wireL [])).lane 0 .a = [.ack 0] ∧
    ((after (.frameReceive 0 .a 0 []) (linkN { wireL with expect := 1 } [])).fe 0).linkA.wire = [] ∧
    wireL.failRow < 3 ∧ wireL.failed = false ∧ LaneMsg.failure ∉ (linkN wireL []).lane 0 .a := by decide +kernel
theorem crcRaw_zero (n : Nat) : ∀ x, crcRaw 0 (leBytes n (x * 2 ^ (8 * n))) = 0 := by
  induction n with
  | zero => intro x; rfl
  | succ n ih =>
    intro x
    have h : x * 2 ^ (8 * (n + 1)) = x * 2 ^ (8 * n) * 256 := by rw [Nat.mul_succ, Nat.pow_add, Nat.mul_assoc]
    have h1 : (x * 2 ^ (8 * (n + 1))) >>> 8 = x * 2 ^ (8 * n) := by
      rw [h, Nat.shiftRight_eq_div_pow]
      exact Nat.mul_div_cancel _ (by decide)
    have h2 : BitVec.ofNat 8 (x * 2 ^ (8 * (n + 1))) = 0 := by
      rw [h]
      apply BitVec.eq_of_toNat_eq
      simp
    rw [leBytes, h1, h2]
    exact ih x
theorem test_error_found : -- an error in the CRC field of a frame alone is found
    let err : BitVec 4096 := BitVec.ofNat 4096 (1 * 2 ^ (8 * 507))
    undetected err = false := by
  intro err
  have h : err.toNat = 1 * 2 ^ (8 * 507) := by decide +kernel
  rw [undetected, h, crcRaw_zero]
  decide +kernel
theorem test_frame_retried :
    let l : RLink := { wireL with waitRetry := some 0 }
    ((after (.frameReceive 0 .a 0 []) (linkN l [])).fe 0).linkA.waitRetry = some 0 ∧
    ((after (.frameReceive 0 .a 0 []) (linkN { l with wire := [{ frame0 0 with sent := 2 }] } [])).fe 0).linkA.waitRetry = none := by
  decide +kernel
theorem test_lane_answers :
    let l : RLink := { RLink.init with replay := [frame0 3, frame0 4] }
    ((after (.ack 0 .a 3) (linkN l [.ack 3])).fe 0).linkA.replay = [frame0 4] ∧
    ((after (.nak 0 .a 4) (linkN l [.nak 4])).fe 0).linkA.resend = [frame0 4] ∧
    ((after (.ackTimeout 0 .a) (linkN l [])).fe 0).linkA.resend = [frame0 3, frame0 4] ∧ (0 : Nat) + 1 < 2 ^ (Fe.init).rlerr ∧
    ((after (.pause 0 .a) (linkN l [.pause])).fe 0).linkA.paused = true ∧
    ((after (.resume 0 .a) (linkN { l with paused := true } [.resume])).fe 0).linkA.paused = false := by decide +kernel
theorem test_alignment :
    (after (.alignmentLoss 0 .a) (linkN wireL [])).lane 0 .a = [.retrain] ∧
    (after (.markerTimeout 0 .a) (linkN wireL [])).lane 0 .a = [.retrain] ∧
    (after (.alignmentLoss 0 .a) (linkN { wireL with aligns := 1 } [])).lane 0 .a = [.failure] ∧
    (after (.markerTimeout 0 .a) (linkN { wireL with aligns := 1 } [])).lane 0 .a = [.failure] := by decide +kernel
theorem test_retraining :
    ((after (.retrainingDone 0 .a) (linkN { wireL with retrain := true, heard := true } [])).fe 0).linkA.retrain = false ∧
    ((after (.retrainingDone 0 .a) (linkN { wireL with retrain := true, heard := true, failed := true } [])).fe 0).linkA.failed = false ∧
    after (.retrainingDone 0 .a) (linkN { wireL with retrain := true } []) = linkN { wireL with retrain := true } [] ∧
    (after (.retrainTimeout 0 .a) (linkN { wireL with retrain := true } [])).lane 0 .a = [.failure] := by decide +kernel

/-! ### Commands of the host -/

/-- Ring 0 enabled and running with one command in progress; its completion ring has 16 entries. -/
def ringW (w : Nat) : CmdRing :=
  { CmdRing.init with en := true, run := true, sqhead := 1, sqtail := 1, cmd := some ⟨BitVec.ofNat 128 w, 0, 0, 0⟩ }
def cmdN (m : Mode) (w : Nat) : State := ({ up with node := { up.node with mode := m } } : State).setCring 0 (ringW w)
/-- CLASS, SUB, ARG0 and ARG1 at their places in a command word (R186), TAG 7. -/
def cw (cl sub a0 a1 : Nat) : Nat := cl + sub * 2 ^ 8 + 7 * 2 ^ 16 + a0 * 2 ^ 32 + a1 * 2 ^ 64
/-- Status code of the completion word that the last command wrote. -/
def status (s : State) : Option Nat :=
  match s.pcie.outQ.getLast? with
  | some (_, .msix _ _) => (s.pcie.outQ.reverse.drop 1).head?.bind (fun o => match o with
    | (_, .write _ bs) => some (leAt bs 0 1)
    | _ => none)
  | _ => none
def detail (s : State) : Option Nat :=
  match (s.pcie.outQ.reverse.drop 1).head? with
  | some (_, .write _ bs) => some (leAt bs 0 8 / 2 ^ 8 % 2 ^ 21)
  | _ => none
theorem inProgress_of (s : State) (src : Src) (cl sub w : Nat) (c : Cmd) (h1 : s.live = true) (h2 : s.cmdOf src = some c)
    (h3 : c.word.toNat = w) (h4 : w % 256 = cl) (h5 : w / 2 ^ 8 % 256 = sub) : s.InProgress src cl sub w :=
  ⟨h1, c, h2, h3, h4, h5⟩

/-- A host that may be read, on ring 0. -/
def fetchN : State :=
  let s := up.setCring 0 { CmdRing.init with en := true, run := true, sqtail := 1 }
  { s with pcie := { s.pcie with touched := true, epA := { Endpoint.init with bme := true, linkUp := true } } }
theorem test_fetch_ready :
    fetchN.live = true ∧ (fetchN.cring 0).cqFull = false ∧ fetchN.mayMaster = true ∧
    fetchN.refusal (cw 0 0 0 0) false = none ∧ ((after (.commandFetch 0 (BitVec.ofNat 128 (cw 0 0 0 0)) true) fetchN).cring 0).cmd.isSome = true ∧
    fetchN.refusal (cw 0x0D 0 0 0) false = some .illegal ∧
    status (after (.commandFetch 0 (BitVec.ofNat 128 (cw 0x0D 0 0 0)) true) fetchN) = some 0x10 := by decide +kernel
theorem test_fetch_fails :
    ((after (.commandFetch 0 0 false) fetchN).cring 0).err = true ∧ ((after (.commandFetch 0 0 false) fetchN).cring 0).cmd = none ∧
    after (.commandFetch 1 0 true) fetchN = fetchN := by decide +kernel
theorem test_completion_wraps :
    let s := cmdN .triggered (cw 0 0 0 0)
    let last := s.setCring 0 { ringW (cw 0 0 0 0) with cqtail := 15 }
    ((s.complete (.ring 0) .ok).cring 0).cqtail = 1 ∧ ((last.complete (.ring 0) .ok).cring 0).cqtail = 0 ∧
    ((last.complete (.ring 0) .ok).cring 0).phase = false := by decide +kernel
/-- A MODE command on ring 0 whose script runs this step. -/
def scriptN (w : Nat) (rest : List (BitVec 128)) : State :=
  let s := cmdN .triggered (cw 3 5 0 0)
  { s with node := { s.node with script := some ⟨.ring 0, BitVec.ofNat 128 w :: rest, 0, some ⟨BitVec.ofNat 128 w, 0, 0, 0⟩, false⟩ } }
theorem test_script_steps :
    (((scriptN 0 [0]).complete .script .ok).node.script.map (·.idx)) = some 1 ∧
    status ((scriptN 0 []).complete .script .ok) = some 0 ∧
    (((scriptN 0 []).complete .script .illegal).cring 0).cmd = none ∧ ((scriptN 0 []).complete .script .illegal).node.mode = .safe := by
  decide +kernel
theorem test_script_commands :
    (after .startAcquisition (scriptN (cw 0x10 1 1 0) [])).core.startReq = true ∧
    (after .stopAcquisition (scriptN (cw 0x10 1 0 0) [])).core.stopReq = true ∧
    (after .retrain (scriptN (cw 0x10 2 1 0) [])).lane 0 .b = [.retrain] ∧
    (after .returnToRefclk (scriptN (cw 0x10 3 0 5) [])).node.realign = some 5 ∧
    (after .returnToRefclk (scriptN (cw 0x10 3 0 0) [])).node.realign = some 1 ∧
    (after .progevt (scriptN (cw 0x10 5 0 9) [])).hay.fifo.map (·.code) = [0x9004] := by decide +kernel
theorem test_lift_fence :
    let s := scriptN (cw 0x10 4 1 5) []
    let s : State := { s with core := { s.core with sorters := [(0, { Sorter.init with fenced := true })] } }
    ((after .liftFence s).sorter 0).liftAt = some 5 := by decide +kernel
theorem test_waits :
    status (after (.nopCommand (.ring 0)) (cmdN .triggered (cw 0 0 0 0))) = some 0 ∧
    status (after (.fenceCommand (.ring 0)) (cmdN .triggered (cw 0x0B 0 0 0))) = some 0 ∧
    status (after (.waitEpoch (.ring 0)) (cmdN .triggered (cw 0x0C 0 0 0))) = some 0 ∧
    after (.waitEpoch (.ring 0)) (cmdN .triggered (cw 0x0C 0 0 1)) = cmdN .triggered (cw 0x0C 0 0 1) ∧
    status (after (.waitTimeout (.ring 0)) (cmdN .triggered (cw 0x0C 0 1 1))) = some 2 ∧
    status (after (.waitNodeTime (.ring 0)) (cmdN .triggered (cw 0x0C 1 0 0))) = some 0 ∧
    after (.waitNodeTime (.ring 0)) (cmdN .triggered (cw 0x0C 1 0 9)) = cmdN .triggered (cw 0x0C 1 0 9) := by decide +kernel
theorem test_wait_event :
    let s := cmdN .triggered (cw 0x0C 2 0 6)
    let seen := s.setCring 0 { ringW (cw 0x0C 2 0 6) with cmd := some ⟨BitVec.ofNat 128 (cw 0x0C 2 0 6), 4, 0, 0⟩ }
    after (.waitEvent (.ring 0)) s = s ∧ detail (after (.waitEvent (.ring 0)) seen) = some 2 := by decide +kernel
theorem test_fence_waits :
    let s := (cmdN .triggered (cw 0x0B 0 0 0)).setCring 0 { ringW (cw 0x0B 0 0 0) with cmd := some ⟨0x0B, 0, 5, 0⟩ }
    after (.fenceCommand (.ring 0)) (s.setCring 1 { ringW 0 with cmd := some ⟨0, 0, 4, 0⟩ }) =
      s.setCring 1 { ringW 0 with cmd := some ⟨0, 0, 4, 0⟩ } := by decide +kernel
theorem test_time_commands :
    (after (.incr (.ring 0)) (cmdN .triggered (cw 5 0 0 9))).time.incrDue = some 9 ∧
    (after (.timeStep (.ring 0)) (cmdN .triggered (cw 5 1 0 9))).time.stepDue = some 9 ∧
    (let s := cmdN .triggered (cw 5 0 0 9)
     status (after (.incr (.ring 0)) { s with time := { s.time with w0 := 1 <<< 47 } })) = some 0x11 ∧
    (let s := cmdN .triggered (cw 5 1 0 9)
     status (after (.timeStep (.ring 0)) { s with time := { s.time with w0 := 1 <<< 47 } })) = some 0x11 := by decide +kernel
theorem test_small_commands :
    status (after (.stopTallyUnit (.ring 0)) (cmdN .triggered (cw 5 5 0 0))) = some 0 ∧
    (after (.injectionStrobe (.ring 0)) (cmdN .triggered (cw 5 6 1 0))).lane 0 .a = [.strobe] ∧
    (after (.conditionEnableMask (.ring 0)) (cmdN .triggered (cw 6 2 0x5 0))).trig.mask = 5 ∧
    ((after (.reply (.ring 0)) (cmdN .triggered (cw 8 4 0 9))).gleaner 0).replies = [9] := by decide +kernel
theorem test_claimed_elsewhere : -- tally unit 0 and TOUT 0 held by loops
    let held := fun (ty w : Nat) =>
      let s := cmdN .triggered w
      ({ s with node := { s.node with rtClaims := [⟨ty, 0, 9, 0⟩] } } : State)
    (held 6 (cw 5 5 0 0)).mayTake 6 0 3 = false ∧ status (after (.stopTallyUnit (.ring 0)) (held 6 (cw 5 5 0 0))) = some 0x11 ∧
    (held 1 (cw 5 2 0 0)).mayTake 1 0 1 = false ∧ toutOk (1 <<< 128) = toutOk (1 <<< 128) := by decide +kernel
theorem test_reply_cases :
    let at_ := fun (x : Gleaner) => (cmdN .triggered (cw 8 4 0 9)).setGleaner 0 x
    status (after (.reply (.ring 0)) (at_ { Gleaner.init with replies := [1, 2, 3, 4] })) = some 0x14 ∧
    ((after (.reply (.ring 0)) (at_ { Gleaner.init with wait := .event 2 8 })).gleaner 0).g 8 = 2 ∧
    ((after (.reply (.ring 0)) (at_ { Gleaner.init with wait := .event 1 8 })).gleaner 0).wait = .event 1 8 := by decide +kernel

theorem test_tout : -- the bounds of a block: width 1 and start nanoseconds below 10^9
    let ok := cmdN .triggered (cw 5 2 0 0)
    toutOk (1 <<< 192) = true ∧ toutOk 0 = false ∧ toutOk ((1 <<< 192) + (1000000000 <<< 64)) = false ∧
    toutOk ((1 <<< 192) + (99 <<< 128)) = false ∧
    status (after (.tout (.ring 0) 0) ok) = some 0x10 ∧ status (after (.tout (.ring 0) (1 <<< 192)) ok) = some 0 ∧
    status (after (.tout (.ring 0) (1 <<< 192)) { ok with node := { ok.node with rtClaims := [⟨1, 0, 9, 0⟩] } }) = some 0x11 := by
  decide +kernel
theorem test_tally_setup :
    let s := cmdN .triggered (cw 5 3 0 0)
    let w : State := s.setTally 0 { Tally.init with setup := some ⟨true, 0, 0, 0, 0, false, false, 0, 0, 0, 0, 1, 0⟩ }
    s.mayTake 6 0 3 = true ∧ (∀ v, v < 8 → (s.tally v).writing = false) ∧
    ((after (.tallyFrequency (.ring 0)) s).tally 0).setup.isSome = true ∧
    ((after (.tallyDifference (.ring 0)) (cmdN .triggered (cw 5 4 0 0))).tally 0).setup.isSome = true ∧
    status (after (.tallyFrequency (.ring 0)) { s with node := { s.node with rtClaims := [⟨6, 0, 9, 0⟩] } }) = some 0x11 ∧
    status (after (.tallyFrequency (.ring 0)) w) = some 0x14 ∧
    (((after (.tallyFrequency (.ring 0)) (s.setTally 0 { Tally.init with
      setup := some ⟨false, 0, 0, 0, 0, false, false, 0, 0, 0, 0, 0, 0⟩ })).tally 0).nextSetup).isSome = true := by
  decide +kernel

/-- A program with one script, from TRIGGERED to mode m, of one NOP. -/
def scriptOf (m : Nat) : List Byte := leBytes 8 (5 * 2 ^ 60 + m * 2 ^ 56 + 1) ++ leBytes 8 0 ++ leBytes 16 0
def modeN (m : Nat) (scripts : List Byte) : State :=
  let s := cmdN .triggered (cw 3 m 0 0)
  { s with node := { s.node with prog := some { emptyProg with scripts := scripts } } }
theorem test_mode :
    (Mode.ofNum? 4) = some .calibrate ∧ legalMode .triggered .calibrate = false ∧
    (status (after (.mode (.ring 0)) (modeN 4 (scriptOf 4))), detail (after (.mode (.ring 0)) (modeN 4 (scriptOf 4)))) = (some 0x10, some 5) ∧
    legalMode .triggered .standby = true ∧ findScript [] .triggered .standby = none ∧
    status (after (.mode (.ring 0)) (modeN 3 [])) = some 0x10 ∧ findScript (scriptOf 3) .triggered .standby = some [0] ∧
    (after (.mode (.ring 0)) (modeN 3 (scriptOf 3))).node.mode = .standby ∧
    (after (.mode (.ring 0)) (modeN 12 (scriptOf 12))).node.mode = .safe := by decide +kernel
theorem test_power :
    status (after (.powerActive (.ring 0) 0) (cmdN .triggered (cw 4 0 0 0))) = some 0 ∧
    (after (.powerHush (.ring 0)) (cmdN .triggered (cw 4 1 0 0))).node.pstate = .hush ∧
    (after (.powerRest (.ring 0)) (cmdN .triggered (cw 4 2 0 0))).node.pstate = .rest ∧
    (after (.powerFallow (.ring 0)) (cmdN .triggered (cw 4 3 0 0))).node.pstate = .fallow ∧
    (after (.powerFrost (.ring 0)) (cmdN .triggered (cw 4 4 0 0))).node.pstate = .frost := by decide +kernel
theorem test_power_waits : -- a baler runs
    let s := (cmdN .triggered (cw 4 1 0 0)).setBaler 0 { Baler.init with job := some ⟨0, 0, 0, [], [], false, false, [], 0⟩ }
    s.trig.cap = none ∧ (after (.powerHush (.ring 0)) s).node.pstate = .active := by decide +kernel
theorem test_power_up :
    let s := cmdN .triggered (cw 4 0 0 0)
    let t := after (.powerActive (.ring 0) 0) { s with node := { s.node with pstate := .rest }, core := { s.core with running := true } }
    t.node.pstate = .active ∧ t.core.nextSl = 1 := by decide +kernel

theorem test_queries : -- a buffer of no bytes and one that the result fits
    let q := fun (sub a0 : Nat) => cmdN .triggered (cw 7 sub a0 0x1000)
    [(9, 0), (11, 0), (16, 0)].all (fun p => status (after (if p.1 = 9 then .queryRedund (.ring 0) else if p.1 = 11 then .queryLoops (.ring 0)
      else .querySettings (.ring 0)) (q p.1 p.2)) == some 0x12) = true ∧
    status (after (.queryRedund (.ring 0)) (q 9 0xFFFFFF)) = some 0 ∧ status (after (.querySettings (.ring 0)) (q 16 2)) = some 0 ∧
    status (after (.queryTable (.ring 0)) (q 13 1)) = some 0 := by decide +kernel
theorem test_query_words : -- each SUB reaches its own row
    (List.range 17).all (fun sub => (cmdN .triggered (cw 7 sub 0 0)).live && cw 7 sub 0 0 % 256 == 7 &&
      cw 7 sub 0 0 / 2 ^ 8 % 256 == sub) = true := by decide +kernel

def ev0 : EvEntry := ⟨5, 0x1001, 1, 0, false, 7, 8, 9, 10⟩
theorem test_ring_read :
    let s := cmdN .triggered (cw 8 0 1 0x1000)
    let one : State := { s with hay := { s.hay with ring := [ev0], unread := 1 } }
    detail (after (.ringRead (.ring 0)) one) = some 1 ∧ (after (.ringRead (.ring 0)) one).hay.unread = 0 ∧
    (after (.ringRead (.ring 0)) { one with hay := { one.hay with evlost := 3 } }).hay.evlost = 0 := by decide +kernel
theorem test_readlog :
    let s := cmdN .triggered (cw 8 1 5 0x1000)
    detail (after (.readlog (.ring 0)) { s with hay := { s.hay with storeA := { Store.init with log := [{ ev0 with seq := 4 }, ev0] } } }) =
      some 1 := by decide +kernel
theorem test_setread :
    [1, 2, 3, 4, 5].all (fun k => status (after (.setread (.ring 0)) (cmdN .triggered (cw 8 3 k 0x1000))) == some 0) = true ∧
    (after (.monrun (.ring 0)) (cmdN .triggered (cw 8 5 0 0))).mon.arriving = [7] := by decide +kernel
theorem test_setwrite_small :
    let at_ := fun (m : Mode) (k : Nat) => cmdN m (cw 8 2 k 0)
    let lo := leBytes 8 (8000 * 2 ^ 23)
    (after (.setwriteTimeService (.ring 0) (leBytes 24 (10 * 2 ^ 52 + 10 * 2 ^ 48))) (at_ .triggered 3)).time.w0.toNat = 10 * 2 ^ 52 + 10 * 2 ^ 48 ∧
    status (after (.setwriteTimeService (.ring 0) (leBytes 24 (11 * 2 ^ 52))) (at_ .triggered 3)) = some 0x10 ∧
    status (after (.setwriteLoopaLoopb (.ring 0) (lo ++ lo)) (at_ .triggered 4)) = some 0 ∧
    status (after (.setwriteLoopaLoopb (.ring 0) (leBytes 16 0)) (at_ .triggered 4)) = some 0x10 ∧
    status (after (.setwriteNodeWord (.ring 0) (leBytes 8 0x1FFFF)) (at_ .triggered 5)) = some 0 ∧
    status (after (.setwriteNodeWord (.ring 0) (leBytes 8 0x20000)) (at_ .triggered 5)) = some 0x10 := by decide +kernel
theorem test_loop_test_current :
    let b := leBytes 8 (5 * 2 ^ 61 + 8000 * 2 ^ 23 + 896 * 2 ^ 10) ++ leBytes 8 (8000 * 2 ^ 23)
    let at_ := fun (m : Mode) => cmdN m (cw 8 2 4 0)
    status (after (.setwriteLoopaLoopb (.ring 0) b) (at_ .triggered)) = some 0x13 ∧
    status (after (.setwriteLoopaLoopb (.ring 0) b) (at_ .standby)) = some 0 := by decide +kernel
def monBlock (dis reg0 inj0 : Nat) : List Byte :=
  let w := fun (x i : Nat) => leBytes 8 (dis * 2 ^ 21 + if i = 0 then x else 0)
  leBytes 8 0 ++ leBytes 8 0x8106008106000000 ++ (List.range 64).flatMap (w reg0) ++ (List.range 8).flatMap (w inj0)
theorem test_setwrite_monitor : -- DIS at 1, 20 and 21; an injected entry whose input another feature holds
    let at_ := cmdN .triggered (cw 8 2 1 0)
    let held : State := { at_ with node := { at_.node with rtClaims := [⟨3, 0, 1, 0⟩] } }
    status (after (.setwriteMonitor (.ring 0) (monBlock 1 0 0)) at_) = some 0 ∧
    entryOk true (20 * 2 ^ 21) = true ∧ entryOk true (21 * 2 ^ 21) = false ∧ entryOk true 0 = false ∧
    status (after (.setwriteMonitor (.ring 0) []) at_) = some 0x10 ∧
    (3, 0) ∈ entryNeeds (2 ^ 63 + 2 ^ 21) ∧ held.entryMay (2 ^ 63 + 2 ^ 21) (3, 0) = false ∧
    status (after (.setwriteMonitor (.ring 0) (monBlock 1 0 (2 ^ 63))) held) = some 0x11 := by decide +kernel
def loopBlock (l0 : LoopSt) : List Byte :=
  (List.range 8).flatMap (fun n =>
    let l := if n = 4 then l0 else LoopSt.init
    [l.w0, l.w1, l.w2, l.w3, l.w4].flatMap (fun w => leBytes 8 w.toNat))
/-- Loop 4 enabled, its feedback from source 2. -/
def loopOn : LoopSt := { LoopSt.init with w0 := BitVec.ofNat 64 (2 ^ 63 + 2 * 2 ^ 61 + 10 * 2 ^ 34) }
theorem test_setwrite_loop :
    let at_ := cmdN .triggered (cw 8 2 2 0)
    let held : State := { at_ with node := { at_.node with rtClaims := [⟨9, 4, 5, 0⟩] } }
    status (after (.setwriteLoop (.ring 0) (loopBlock LoopSt.init)) at_) = some 0 ∧
    status (after (.setwriteLoop (.ring 0) (loopBlock { LoopSt.init with w3 := 0 })) at_) = some 0x10 ∧
    ((after (.setwriteLoop (.ring 0) (loopBlock loopOn)) at_).loop 4).starting = true ∧
    ((after (.setwriteLoop (.ring 0) (loopBlock loopOn)) (at_.setLoop 4 loopOn)).loop 4).wait.isSome = true ∧
    status (after (.setwriteLoop (.ring 0) (loopBlock loopOn)) held) = some 0x11 := by decide +kernel

-- LOAD: an image without its magic number.
theorem test_load_refused :
    let s := cmdN .standby (cw 1 0 0 0)
    status (after (.load (.ring 0) (leBytes 64 0)) s) = some 0x10 ∧ detail (after (.load (.ring 0) (leBytes 64 0)) s) = some 0x20000 := by
  decide +kernel
/-! ### An image that passes (R170 to R176, R182) -/

/-- Header up to ICRC: magic, format, flags, size, 8 sections, entry 0, the default watchdog, device. -/
def imageHead : List Byte :=
  leBytes 4 0x49545548 ++ leBytes 2 1 ++ leBytes 2 0 ++ leBytes 4 561584 ++ leBytes 2 8 ++ leBytes 10 0 ++ leBytes 2 0x4096 ++
    leBytes 34 0
/-- A directory entry. -/
def imageSect (type id off size : Nat) : List Byte := leBytes 2 type ++ leBytes 2 id ++ leBytes 4 off ++ leBytes 8 size
/-- The directory, four nop instructions, a script directory without entries, and the At SEED control words and band parts. -/
def imageDir : List Byte :=
  imageSect 1 0 0xC0 0 ++ imageSect 2 0 0xC0 16 ++ imageSect 4 0 0xD0 16 ++ imageSect 3 8 0xE0 384 ++
    imageSect 3 0x0A 0x260 3856 ++ imageSect 3 2 0x1170 16384 ++ imageSect 3 1 0x5170 524288 ++ imageSect 3 3 0x85170 16448 ++
    (List.replicate 4 (leBytes 4 0xF8000000)).flatten ++ leBytes 16 0 ++
    (List.replicate 8 (leBytes 8 0x0080110000000000)).flatten ++
    (List.replicate 5 (leBytes 36 0 ++ leBytes 2 3600 ++ leBytes 26 0xFF)).flatten
/-- Region words: HITLIM 34. -/
def imageRegions : List Byte := (List.replicate 8 (leBytes 8 (34 * 2 ^ 19))).flatten
def imageWith (crc : Nat) : List Byte := imageHead ++ (leBytes 4 crc ++ (imageDir ++ (List.replicate 560912 0 ++ imageRegions)))
def imageCrc : Nat := crc32c (imageWith 0)
def goodImage : List Byte := imageWith imageCrc

theorem length_leBytes (n x : Nat) : (leBytes n x).length = n := by
  induction n generalizing x with
  | zero => rfl
  | succ n ih => exact congrArg (· + 1) (ih _)

theorem leNat_leBytes (n x : Nat) : leNat (leBytes n x) = x % 256 ^ n := by
  induction n generalizing x with
  | zero => exact (Nat.mod_one x).symm
  | succ n ih =>
    have h := Nat.mod_mul (x := x) (a := 256) (b := 256 ^ n)
    have e : x >>> 8 = x / 256 := Nat.shiftRight_eq_div_pow x 8
    rw [leBytes, leNat, ih, e, BitVec.toNat_ofNat, show 256 ^ (n + 1) = 256 * 256 ^ n from Nat.pow_succ']
    exact h.symm

theorem crcBit_lt (c : Nat) (h : c < 2 ^ 32) : crcBit c < 2 ^ 32 := by
  have h1 : c >>> 1 < 2 ^ 32 := by rw [Nat.shiftRight_eq_div_pow]; omega
  unfold crcBit
  split
  · exact Nat.xor_lt_two_pow h1 (by decide)
  · exact h1

theorem crc32c_lt (bs : List Byte) : crc32c bs < 2 ^ 32 := by
  have h : ∀ (l : List Byte) (c : Nat), c < 2 ^ 32 → crcRaw c l < 2 ^ 32 := by
    intro l
    induction l with
    | nil => exact fun c h => h
    | cons b l ih =>
      intro c h
      refine ih (crcByte c b) ?_
      unfold crcByte
      have := Nat.xor_lt_two_pow h (Nat.lt_trans b.isLt (by decide : 2 ^ 8 < 2 ^ 32))
      iterate 8 apply crcBit_lt
      exact this
  exact Nat.xor_lt_two_pow (h bs _ (by decide)) (by decide)

theorem length_imageWith (c : Nat) : (imageWith c).length = 561584 := by
  have h1 : imageHead.length = 60 := by decide
  have h2 : imageDir.length = 544 := by decide +kernel
  have h3 : imageRegions.length = 64 := by decide +kernel
  simp only [imageWith, List.length_append, h1, h2, h3, length_leBytes, List.length_replicate]

theorem icrcBytes_image : icrcBytes goodImage = imageWith 0 := by
  have h0 : imgSigned goodImage = false := by decide +kernel
  have h1 : imageHead.length = 60 := by decide
  have h2 : (leBytes 4 imageCrc).length = 4 := length_leBytes ..
  unfold icrcBytes
  rw [h0]
  simp only [Bool.false_eq_true, if_false]
  have h3 : goodImage.drop 0x40 = imageDir ++ (List.replicate 560912 0 ++ imageRegions) := by
    unfold goodImage imageWith
    rw [← List.append_assoc, List.drop_append_of_le_length (by rw [List.length_append]; omega),
      List.drop_of_length_le (by rw [List.length_append]; omega), List.nil_append]
  have h4 : goodImage.take 0x3C = imageHead := by
    unfold goodImage imageWith
    rw [List.take_append_of_le_length (by omega), List.take_of_length_le (by omega)]
  rw [h3, h4, List.append_assoc]
  rfl

def imageSects : List Sect :=
    [⟨1, 0, 0xC0, 0, 0⟩, ⟨2, 0, 0xC0, 16, 0⟩, ⟨4, 0, 0xD0, 16, 0⟩, ⟨3, 8, 0xE0, 384, 0⟩, ⟨3, 0x0A, 0x260, 3856, 0⟩,
      ⟨3, 2, 0x1170, 16384, 0⟩, ⟨3, 1, 0x5170, 524288, 0⟩, ⟨3, 3, 0x85170, 16448, 0⟩]
theorem sections_image : sections goodImage = imageSects := by decide +kernel

theorem header_image : headerOk goodImage = true := by
  have h : leAt goodImage 0x3C 4 = imageCrc := by
    have h1 : imageHead.length = 60 := by decide
    have h2 : (leBytes 4 imageCrc).length = 4 := length_leBytes ..
    unfold leAt goodImage imageWith
    rw [List.drop_append_of_le_length (by omega), List.drop_of_length_le (by omega), List.nil_append,
      List.take_append_of_le_length (by omega), List.take_of_length_le (by omega), leNat_leBytes]
    exact Nat.mod_eq_of_lt (crc32c_lt _)
  unfold headerOk
  rw [h, icrcBytes_image, show goodImage.length = 561584 from length_imageWith _]
  simp only [Bool.and_eq_true]
  refine ⟨⟨⟨⟨⟨⟨⟨⟨⟨⟨⟨⟨⟨?_, ?_⟩, ?_⟩, ?_⟩, ?_⟩, ?_⟩, ?_⟩, ?_⟩, ?_⟩, ?_⟩, ?_⟩, ?_⟩, ?_⟩, beq_self_eq_true imageCrc⟩ <;> decide +kernel

/-- The sections of the image that are not all zero. -/
theorem sectBytes_image (t i o n a : Nat) (h : 64 ≤ o) :
    sectBytes goodImage ⟨t, i, o, n, a⟩ = ((imageDir ++ (List.replicate 560912 0 ++ imageRegions)).drop (o - 64)).take n := by
  have h1 : imageHead.length = 60 := by decide
  have h2 : (leBytes 4 imageCrc).length = 4 := length_leBytes ..
  show ((imageHead ++ (leBytes 4 imageCrc ++ _)).drop o).take n = _
  rw [← List.append_assoc, List.drop_append, List.drop_of_length_le (by rw [List.length_append]; omega), List.nil_append,
    List.length_append, h1, h2]

theorem cellsOf_zeros_append (n : Nat) (l : List Byte) :
    cellsOf (List.replicate n 0 ++ l) = ((l.zipIdx n).filter (fun p => p.1 ≠ 0)).map (fun p => (p.2, p.1)) := by
  have h : ∀ n k, ((List.replicate n (0 : Byte)).zipIdx k).filter (fun p => p.1 ≠ 0) = [] := by
    intro n
    induction n with
    | zero => exact fun _ => rfl
    | succ n ih => intro k; rw [List.replicate_succ, List.zipIdx_cons, List.filter_cons_of_neg (by simp), ih]
  rw [cellsOf, List.zipIdx_append, List.filter_append, h, List.nil_append, List.length_replicate, Nat.zero_add]

theorem cellsOf_zeros (n : Nat) : cellsOf (List.replicate n 0) = [] := by
  have h := cellsOf_zeros_append n []
  rwa [List.append_nil] at h

/-- The sections inside the run of zeros. -/
theorem zeros_image (t i o n a : Nat) (h : 608 ≤ o) (hn : o + n ≤ 561520) :
    sectBytes goodImage ⟨t, i, o, n, a⟩ = List.replicate n 0 := by
  have h2 : imageDir.length = 544 := by decide +kernel
  rw [sectBytes_image _ _ _ _ _ (by omega), List.drop_append, List.drop_of_length_le (by omega), List.nil_append, h2,
    List.drop_append_of_le_length (by rw [List.length_replicate]; omega), List.drop_replicate,
    List.take_append_of_le_length (by rw [List.length_replicate]; omega), List.take_replicate, Nat.min_eq_left (by omega)]

/-- The threshold table: channel words zero, then the region words. -/
theorem thresholds_image : cellsOf (sectBytes goodImage ⟨3, 3, 0x85170, 16448, 0⟩) = (List.range 8).flatMap (fun d =>
    [(0x4000 + 8 * d + 2, 0x10), (0x4000 + 8 * d + 3, 0x01)]) := by
  have h2 : imageDir.length = 544 := by decide +kernel
  have h3 : imageRegions.length = 64 := by decide +kernel
  rw [sectBytes_image _ _ _ _ _ (by omega), List.drop_append, List.drop_of_length_le (by omega), List.nil_append, h2,
    List.drop_append_of_le_length (by rw [List.length_replicate]; omega), List.drop_replicate,
    List.take_of_length_le (by rw [List.length_append, List.length_replicate]; omega), cellsOf_zeros_append]
  decide +kernel

theorem check4_of (b : List Byte) (l : List Sect) (hs : sections b = l)
    (h : ∀ i < imgNsect b, ∀ x, l[i]? = some x → (sectOk b x && sectApart b i && sectSizeOk b x) = true)
    (hn : ¬((sectOf b 1).isNone = true ∨ (sectOf b 2).isNone = true ∨ (sectOf b 4).isNone = true))
    (hr : (requiredTables b).find? (fun id => (tableSect b id).isNone) = none) : check4 b = none := by
  unfold check4
  rw [hs, hr]
  dsimp only
  split
  · next i hi =>
    have hp := List.find?_some hi
    have hm := List.mem_range.1 (List.mem_of_find?_eq_some hi)
    revert hp
    split
    · next x hx => rw [h i hm x hx]; exact fun h => nomatch h
    · exact fun h => nomatch h
  · exact if_neg hn

theorem check4_image : check4 goodImage = none := by
  have hn : imgNsect goodImage = 8 := by decide +kernel
  have h1 : ∀ i < 8, sectApart goodImage i = true := by decide +kernel
  have h2 : ∀ x ∈ imageSects, sectSizeOk goodImage x = true := by decide +kernel
  have h3 : ∀ x ∈ imageSects, sectOk goodImage x = true := by
    intro x hx
    unfold sectOk
    rw [show goodImage.length = 561584 from length_imageWith _]
    revert x
    decide +kernel
  refine check4_of _ _ sections_image (fun i hi x hx => ?_) (by decide +kernel) (by decide +kernel)
  have hx' := List.mem_of_getElem? hx
  rw [h1 i (hn ▸ hi), h2 x hx', h3 x hx']
  rfl

theorem check5_image : check5 goodImage = none := by decide +kernel
theorem check6_image (s : State) : s.check6 goodImage = none := by
  have h : manifest goodImage = [] := by decide +kernel
  unfold State.check6
  rw [h]
  rfl

theorem fields_of (s : State) (b : List Byte) (i o n a : Nat) (m : List Host.Cell) (hm : cellsOf (sectBytes b ⟨3, i, o, n, a⟩) = m)
    (h : tableOk s.mon.on (claimsOf (manifest b)) i m = true) : s.sectFieldsOk b ⟨3, i, o, n, a⟩ = true := by
  subst hm
  exact h

theorem check7_of (s : State) (b : List Byte) (l : List Sect) (hs : sections b = l) (h : ∀ x ∈ l, s.sectFieldsOk b x = true) :
    s.check7 b = none := by
  unfold State.check7 badSect
  rw [hs, List.findIdx?_eq_none_iff.2 (fun x hx => by rw [h x hx]; rfl)]
  rfl

theorem fieldsOk_of (s : State) (b : List Byte) (hm : manifest b = []) (hscript : scriptsOk (sectBytes b ⟨4, 0, 0xD0, 16, 0⟩) = true)
    (hseeds : seedsOk (cellsOf (sectBytes b ⟨3, 8, 0xE0, 384, 0⟩)) = true)
    (hz : ∀ i o n a, 608 ≤ o → o + n ≤ 561520 → cellsOf (sectBytes b ⟨3, i, o, n, a⟩) = [])
    (ht : thresholdOk (cellsOf (sectBytes b ⟨3, 3, 0x85170, 16448, 0⟩)) = true) (hpre : presetsOk [] [] = true)
    (hcurve : curveOk [] = true) (x : Sect) (hx : x ∈ imageSects) : s.sectFieldsOk b x = true := by
  unfold imageSects at hx
  simp only [List.mem_cons, List.not_mem_nil, or_false] at hx
  rcases hx with rfl | rfl | rfl | rfl | rfl | rfl | rfl | rfl
  · unfold State.sectFieldsOk; rw [hm]; rfl
  · rfl
  · exact hscript
  · exact fields_of _ _ _ _ _ _ _ rfl hseeds
  · exact fields_of _ _ _ _ _ _ _ (hz _ _ _ _ (by decide) (by decide)) (by rw [hm]; exact hpre)
  · exact fields_of _ _ _ _ _ _ _ (hz _ _ _ _ (by decide) (by decide)) rfl
  · exact fields_of _ _ _ _ _ _ _ (hz _ _ _ _ (by decide) (by decide)) hcurve
  · exact fields_of _ _ _ _ _ _ _ rfl ht

theorem manifest_image : manifest goodImage = [] := by decide +kernel
theorem scripts_image : scriptsOk (sectBytes goodImage ⟨4, 0, 0xD0, 16, 0⟩) = true := by decide +kernel
theorem seeds_image : seedsOk (cellsOf (sectBytes goodImage ⟨3, 8, 0xE0, 384, 0⟩)) = true := by decide +kernel
theorem presets_image : presetsOk [] [] = true := by decide +kernel
theorem numAt_zero (m : List Host.Cell) (a n : Nat) (h : ∀ k, k < a + n → byteAt m k = 0) : numAt m a n = 0 := by
  have hl : ∀ l : List Byte, (∀ x ∈ l, x = 0) → leNat l = 0 := by
    intro l
    induction l with
    | nil => exact fun _ => rfl
    | cons x l ih =>
      intro hx
      rw [leNat, ih (fun y hy => hx y (List.mem_cons_of_mem _ hy)), hx x List.mem_cons_self]
      rfl
  refine hl _ (fun x hx => ?_)
  obtain ⟨i, hi, rfl⟩ := List.mem_map.1 hx
  exact h _ (by have := List.mem_range.1 hi; omega)

theorem curve_image : curveOk [] = true := by
  have h : ∀ a n, numAt [] a n = 0 := fun a n => numAt_zero [] a n (fun _ _ => rfl)
  simp only [curveOk, allBelow, List.all_eq_true, h]
  exact fun _ _ => rfl

theorem channels_image : thresholdOk (cellsOf (sectBytes goodImage ⟨3, 3, 0x85170, 16448, 0⟩)) = true := by
  have hg : ∀ (m : List Host.Cell) (k : Nat), (∀ p ∈ m, k < p.1) → byteAt m k = 0 := by
    intro m k
    induction m with
    | nil => exact fun _ => rfl
    | cons p m ih =>
      intro h
      have h1 := h p List.mem_cons_self
      obtain ⟨a, v⟩ := p
      show (if k = a then v else byteAt m k) = 0
      rw [if_neg (Nat.ne_of_lt h1)]
      exact ih (fun q hq => h q (List.mem_cons_of_mem _ hq))
  rw [thresholds_image]
  have hm : ∀ p ∈ (List.range 8).flatMap (fun d => [(0x4000 + 8 * d + 2, (0x10 : Byte)), (0x4000 + 8 * d + 3, 0x01)]), 0x4000 ≤ p.1 := by
    decide +kernel
  have hw : ∀ d < 8, numAt ((List.range 8).flatMap (fun d => [(0x4000 + 8 * d + 2, (0x10 : Byte)), (0x4000 + 8 * d + 3, 0x01)]))
      (0x4000 + 8 * d) 8 = 34 * 2 ^ 19 := by decide +kernel
  generalize (List.range 8).flatMap (fun d => [(0x4000 + 8 * d + 2, (0x10 : Byte)), (0x4000 + 8 * d + 3, 0x01)]) = m at hm hw ⊢
  have hz : ∀ c < 4096, numAt m (4 * c) 4 = 0 := fun c hc =>
    numAt_zero _ _ _ (fun k hk => hg _ _ (fun p hp => by have := hm p hp; omega))
  simp only [thresholdOk, allBelow, List.all_eq_true, List.mem_range, Bool.and_eq_true]
  intro d hd
  rw [hw d hd]
  refine ⟨by decide, fun c hc => ?_⟩
  rw [hz (512 * d + c) (by omega)]
  decide

theorem fields_image (s : State) (x : Sect) (hx : x ∈ imageSects) : s.sectFieldsOk goodImage x = true :=
  fieldsOk_of s _ manifest_image scripts_image seeds_image
    (fun i o n a h1 h2 => by rw [zeros_image _ _ _ _ _ h1 h2, cellsOf_zeros]) channels_image presets_image curve_image x hx

theorem loadFailure_of (s : State) (b : List Byte) (h : s.node.reqSig = false) (h0 : imgSigned b = false) (h2 : headerOk b = true)
    (h4 : check4 b = none) (h5 : check5 b = none) (h6 : s.check6 b = none) (h7 : s.check7 b = none) : s.loadFailure b = none := by
  unfold State.loadFailure State.check3
  rw [h, h0, h2, h4, h5, h6, h7]
  rfl

theorem loadFailure_image (s : State) (h : s.node.reqSig = false) : s.loadFailure goodImage = none :=
  loadFailure_of s _ h (by decide +kernel) header_image check4_image check5_image (check6_image s)
    (check7_of s _ _ sections_image (fields_image s))

/-- LOAD of the image in SELFTEST: every check passes. Its header is whole, so that a node that asks for signatures refuses it in
check 3. -/
theorem test_load_passes :
    let s := cmdN .selftest (cw 1 0 1000 0)
    let t : State := { s with node := { s.node with reqSig := true } }
    s.InProgress (.ring 0) 0x01 0 (cw 1 0 1000 0) ∧ s.loadFailure goodImage = none ∧ arg0 (cw 1 0 1000 0) ≠ 0 ∧
    s.node.mode = .selftest ∧ t.InProgress (.ring 0) 0x01 0 (cw 1 0 1000 0) ∧ headerOk goodImage = true ∧ t.node.reqSig = true ∧
    (leAt goodImage 6 2).testBit 0 = false := by
  have hw : (BitVec.ofNat 128 (cw 1 0 1000 0)).toNat = cw 1 0 1000 0 := by decide +kernel
  exact ⟨inProgress_of _ _ _ _ _ _ rfl rfl hw (by decide) (by decide), loadFailure_image _ rfl, by decide, rfl,
    inProgress_of _ _ _ _ _ _ rfl rfl hw (by decide) (by decide), header_image, rfl, by decide +kernel⟩

/-! ### More commands of the host -/

-- TABLE on a gleaner table of 64 bytes.
def tabN (run : Bool) : State :=
  let s := cmdN .standby (cw 2 0 0x83 0)
  { s with
    node := { s.node with prog := some { emptyProg with sizes := [(0x83, 64)], attrs := [(0x83, 3)] } }
    core := { s.core with running := run } }
def patch (off len : Nat) : List Byte := leBytes 4 off ++ leBytes 4 len ++ leBytes 8 0 ++ leBytes len 0x01020304
theorem test_table :
    (after (.table (.ring 0) (patch 60 4)) (tabN false)).core.tableDue.map (fun d => (d.id, d.off, d.bytes, d.at_)) =
      [(0x83, 60, [4, 3, 2, 1], 1)] ∧
    status (after (.table (.ring 0) (patch 64 4)) (tabN false)) = some 0x10 ∧
    status (after (.table (.ring 0) (patch 2 4)) (tabN false)) = some 0x10 := by decide +kernel
theorem test_table_applied :
    let s : State := { tabN false with core := { (tabN false).core with tableDue := [⟨0x83, 0, [9], 1, some (.ring 0)⟩] } }
    s.counting = true ∧ byteAt ((after .sliceBoundary s).table 0x83) 0 = 9 ∧ ((after .sliceBoundary s).cring 0).cmd = none := by
  decide +kernel
theorem test_table_busy : -- TABLE on the skew table while unit 0 writes it
    let s := cmdN .standby (cw 2 0 2 0)
    let s : State := { s with node := { s.node with prog := some { emptyProg with sizes := [(2, 16384)] } } }
    let w : Tally := { Tally.init with setup := some ⟨true, 0, 0, 0, 0, false, false, 0, 0, 0, 0, 1, 0⟩ }
    w.writing = true ∧ status (after (.table (.ring 0) (patch 0 4)) (s.setTally 0 w)) = some 0x14 := by decide +kernel

-- Firmware: an image signed with a P-384 key of our own; the slots of both hubs; the trial.
def fwKeyB : List Byte :=
  (beBytes 48 0x12af36a2166047846cef028d2025ffcac30e9ba3cbccf46fda55ceeb91d5e5a40beb1df348b34471686ec494e14a91ff ++
    beBytes 48 0xc2b00d6cdcdcb5969e2b0cd8fb49b83a687c7e1286e8c61efc68d5a33b4502bd79e3f2c602c7e53d685fbf9c5f9808b4)
def fwHead : List Byte :=
  leBytes 4 0x57465748 ++ leBytes 2 1 ++ leBytes 2 0 ++ leBytes 4 0x114 ++ leBytes 4 4 ++ leBytes 4 0 ++ leBytes 4 7 ++ leBytes 8 0 ++
    fwKeyB ++ beBytes 48 0x5a667d62430a8c253ebae433333904dc6e1d41dcdc479704773159b905a3ad82d2bad7762d81a366cc46fbb2e2327f5c
def fwImage : List Byte := fwHead ++ (beBytes 48 0xed2ba7a65ef138a5d2955a09c7c9c8b407b0e1a682b0ee4be5138306aca01f0df8a146c88b8b6267e2c2c430e77b9db6 ++
    beBytes 48 0xbdf5b7880181aaedac92a54c68280b23bde665679f0dc73e3264d2f3e5daba46eb46395bb76a7bcf073a81ab0da48fea) ++ [1, 2, 3, 4]
def fwStore : Store :=
  { Store.init with
    rows := (List.range 12).foldl (fun t i => Tbl.set 0 t i (BitVec.ofNat 32 (leAt (beBytes 48 0x731b02fa89bff917a13d8787e6b3e2cd3e77742b5ce2a3bea7c6545c08ef808074759e563ec4408960f8257f4c8a3e96) (4 * i) 4))) [], slotB := fwImage }
def fwN (sub a0 : Nat) : State :=
  let s := cmdN .standby (cw 9 sub a0 0)
  { s with hay := { Hayward.init with up := true, storeA := fwStore, storeB := fwStore } }
theorem test_image_valid : fwStore.imageCheck fwImage = none := by decide +kernel
theorem test_stage :
    let img := List.replicate 4096 (0 : Byte)
    img.length = 4096 * 1 ∧ cw 9 0 1 0 / 2 ^ 32 % 2 ^ 32 = 1 := by
  refine ⟨List.length_replicate, by decide⟩
theorem test_verify : -- with the theorem above, the slot that VERIFY checks is valid in both hubs
    let s := fwN 1 0
    s.hay.staged.getD (!s.hay.slot) = true ∧ fwStore.slotImg true = fwImage ∧ s.hay.store .a = fwStore ∧ s.hay.store .b = fwStore := by
  decide +kernel
theorem test_verify_denied :
    let s := fwN 1 0
    let s : State := { s with hay := { s.hay with storeA := Store.init, storeB := Store.init } }
    (status (after (.verify (.ring 0) 0) s), detail (after (.verify (.ring 0) 0) s)) = (some 0x15, some 1) := by decide +kernel
theorem test_commit :
    let s := fwN 2 0
    let v : Store := { fwStore with rec0 := some ⟨1, false, 0, false, true, 0, 7⟩ }
    status (after (.commit (.ring 0) 0) s) = some 0x15 ∧
    (after (.commit (.ring 0) 0) { s with hay := { s.hay with storeA := v, storeB := v } }).hay.storeA.control.trial = 1 ∧
    (after (.activate (.ring 0)) (fwN 3 0)).hay.restart = true := by decide +kernel

-- OTP: a legal block of zeros but for the loop words and the time word that the words must hold.
def otpBlock : List Byte :=
  ((List.range 32).map (fun n => if n = 8 ∨ n = 9 then 8000 * 2 ^ 23 else if 13 ≤ n ∧ n < 29 then
    (let k := (n - 13) % 4
     if k = 0 then 10 * 2 ^ 34 else if k = 3 then 16 * 2 ^ 56 + 8000 * 2 ^ 24 else 0) else 0)).flatMap (leBytes 8)
def otpN (q : Int) (rows : Tbl (BitVec 32)) : State :=
  let s := cmdN .standby (cw 0x0A 0 0 0)
  { s with
    hay := { Hayward.init with up := true, storeA := { Store.init with rows := rows }, storeB := { Store.init with rows := rows } }
    thermal := { Thermal.init with read := (List.range 40).map (fun i => (i, some q)) } }
theorem test_otp :
    otpBlock.length = 256 ∧ otpFieldsOk otpBlock = true ∧ (otpN 340 []).coolEnough = true ∧
    status (after (.otp (.ring 0) otpBlock none) (otpN 340 [])) = some 0 ∧
    (Tbl.get 0 (after (.otp (.ring 0) otpBlock none) (otpN 340 [])).hay.storeB.rows (0x20 + 63)) = 0xA5C35A3C := by decide +kernel
theorem test_otp_denied :
    (status (after (.otp (.ring 0) otpBlock none) (otpN 341 [])), detail (after (.otp (.ring 0) otpBlock none) (otpN 341 []))) =
      (some 0x15, some 1) ∧
    (status (after (.otp (.ring 0) otpBlock none) (otpN 340 [(0x20 + 64 * 3, 1)])),
     detail (after (.otp (.ring 0) otpBlock none) (otpN 340 [(0x20 + 64 * 3, 1)]))) = (some 0x15, some 2) ∧
    otpFieldsOk (List.replicate 256 0) = false ∧
    status (after (.otp (.ring 0) (List.replicate 256 0) none) (otpN 340 [])) = some 0x10 := by decide +kernel

/-! ### Triggers, parts and balers -/

def trigN (m : Mode) (t : Tcmd) : State :=
  let s : State := { up with node := { up.node with mode := m } }
  { s with trig := { s.trig with tcmd := t } }
def lockedP : Pair := ⟨true, false⟩
theorem test_tcmd_lock :
    (after (.tcmdNoLock 1) (trigN .selftest Tcmd.init)).trig.tcmd.pair1 = ⟨false, true⟩ ∧
    after (.tcmdNoLock 1) (trigN .standby Tcmd.init) = trigN .standby Tcmd.init ∧
    (after (.tcmdLock 0) (trigN .standby Tcmd.init)).trig.tcmd.pair0 = lockedP ∧
    (after (.tcmdLock 1) (trigN .standby { Tcmd.init with inUse := none })).trig.tcmd.inUse = some 1 := by decide +kernel
theorem test_tcmd_lost :
    let t : Tcmd := { Tcmd.init with pair0 := lockedP }
    (after (.tcmdsw 1 true) (trigN .standby t)).trig.tcmd.inUse = some 0 ∧
    (after (.tcmdsw 0 true) (trigN .standby { t with pair1 := lockedP })).trig.tcmd.inUse = some 1 ∧
    (after (.tcmdsw 0 true) (trigN .standby t)).hay.fifo.map (·.code) = [0x200A] := by decide +kernel
theorem test_tcmd_errors : -- 16 errors in 64 units
    let t := fun (e : BitVec 64) => trigN .standby { Tcmd.init with pair0 := lockedP, pair1 := lockedP, errs := e }
    (t 0xFFFF).decRaw = false ∧ (t 0xFFFF).trig.tcmd.errCount = 16 ∧
    (after (.tcmdsw 0 false) (t 0xFFFF)).trig.tcmd.inUse = some 1 ∧ (after (.tcmdsw 0 false) (t 0x7FFF)).trig.tcmd.inUse = some 0 := by
  decide +kernel
/-- A decode table of one state and one condition: a transition on the unit 0x0F to state 0 that shifts 4 bits into field 3. -/
def decodeTab : List Host.Cell :=
  cellsOf (leBytes 8 (1 * 2 ^ 8 + 1 * 2 ^ 16) ++ leBytes 8 0 ++ (List.range 16).flatMap (fun _ => leBytes 4 0) ++ leBytes 8 0 ++
    leBytes 8 (2 ^ 63 + 0x0F * 2 ^ 43 + 0x3FF * 2 ^ 53) ++ (List.range 15).flatMap (fun _ => leBytes 8 0))
def decN : State :=
  let s := trigN .triggered { Tcmd.init with pair0 := lockedP }
  { s with tables := Tbl.set [] [] idDecode decodeTab }
theorem test_tcmd_unit :
    (decN.table idDecode).isEmpty = false ∧ decN.decConds = 1 ∧ decN.tcmdMatch decN.trig.tcmd 0x0F ≠ none ∧
    decN.tcmdMatch decN.trig.tcmd 0x10 = none ∧ (after (.tcmdUnit 0x0F 0) decN).trig.tcmd.state = 0 ∧
    (after (.tcmdUnit 0x10 0) decN).count (figTrig 5 3) = 1 := by decide +kernel

def softN : State :=
  let s := (cmdN .triggered (cw 6 0 0 (1000 * 2 ^ 8)))
  { s with tables := decN.tables, core := { s.core with running := true }, ring := { s.ring with begun := true } }
theorem test_software_trigger :
    (softN.core.startAt : Int) ≤ 1000 - condPre (softN.condWord 0 4) ∧
    (after (.softwareTrigger (.ring 0)) softN).trig.queue.map (fun e => (e.ws, e.soft, e.conds)) = [(1000, true, 1)] ∧
    status (after (.softwareTrigger (.ring 0)) { softN with tables := [] }) = some 0x10 ∧
    status (after (.softwareTrigger (.ring 0)) (softN.setCring 0 (ringW (cw 6 0 1 0)))) = some 0x10 := by decide +kernel
def entry0 : TrigEntry := ⟨3, .closed, 1, 0, 1000, 1, false, true, false, false, false, 0, 0, false⟩
theorem test_queue_full :
    let s : State := { softN with trig := { softN.trig with queue := List.replicate 64 entry0 } }
    status (after (.softwareTrigger (.ring 0)) s) = some 0x14 := by decide +kernel
theorem test_stream :
    let s : State := { softN with node := { softN.node with mode := .streaming }, trig := { softN.trig with streamAt := some 0 } }
    s.streamLen = 0 ∧ after .streamEntry { s with trig := { s.trig with streamAt := none } } = { s with trig := { s.trig with streamAt := none } } := by
  decide +kernel
/-- The same with a condition of PRE 0 and POST 5. -/
def streamN : State :=
  let m := putBytes decodeTab (80 + 136 + 32) (leBytes 8 (5 * 2 ^ 28))
  let s : State := { softN with tables := Tbl.set [] [] idDecode m }
  { s with node := { s.node with mode := .streaming }, trig := { s.trig with streamAt := some 4095 } }
theorem test_stream_window : 0 < streamN.streamLen ∧ (4095 : Int) < streamN.coarse0 + 4096 ∧
    (after .streamEntry streamN).trig.streamAt = some (4095 + streamN.streamLen) := by decide +kernel
theorem test_capture :
    let s : State := { softN with trig := { softN.trig with queue := [{ entry0 with num := 4 }, entry0] } }
    (entry0.num - entry0.num).toNat < 2 ^ 31 ∧ ((4 : BitVec 32) - entry0.num).toNat < 2 ^ 31 ∧
    (after .captureStart s).trig.cap.map (·.num) = some 3 ∧
    after .captureStart softN = softN := by decide +kernel
def capN : State :=
  { softN with trig := { softN.trig with
      queue := [{ entry0 with st := .capturing }], cap := some ⟨3, [], 0, [], [7], 0, [], false, 0⟩ } }
theorem test_part_complete :
    capN.capEntry = some { entry0 with st := .capturing } ∧ capN.ownMerges = false ∧
    (after .partComplete capN).trig.cap = none ∧ (after .partComplete capN).trig.staging.map (fun p => (p.num, p.recs, p.wlen)) = [(3, [7], 1000)] ∧
    after .partComplete softN = softN := by decide +kernel
-- A baler job of one record of zeros in one stored block; a delta table of one profile with the bound as its allocation.
def deltaTab (head : Nat) : List Host.Cell := cellsOf (leBytes 8 (1 + 0xFFFFF * 2 ^ 8) ++ leBytes 8 0 ++ leBytes 8 head)
def job0 : Job := ⟨3, 0, 0, [0], [], false, false, [], 0⟩
def jobN (head : Nat) (j : Job) : State :=
  let s : State := { up with tables := Tbl.set [] [] idDelta (deltaTab head) }
  s.setBaler 0 { Baler.init with job := some j }
def zeroStream : List Byte := [1, 16, 0, 0xEF, 0xFF] ++ List.replicate 16 0
theorem test_job_status :
    let st := fun (head : Nat) (j : Job) (stream : List Byte) (sound : Bool) =>
      (jobN head j).jobStatus j stream sound
    st 0 job0 zeroStream true = 0 ∧ st 0 { job0 with stored := true } zeroStream true = 3 ∧
    st 0 job0 zeroStream false = 2 ∧ st 0 { job0 with stored := true } zeroStream false = 4 ∧
    nspolOf ((jobN (2 ^ 39) job0).profHead 0) = true ∧ nspolOf ((jobN 0 job0).profHead 0) = false := by decide +kernel
theorem test_job_end :
    ((after (.jobEnd 0 zeroStream true) (jobN 0 job0)).baler 0).job = none ∧
    ((after (.jobEnd 0 zeroStream false) (jobN 0 job0)).baler 0).job.map (·.stored) = some true ∧
    ((after (.jobEnd 0 zeroStream false) (jobN 0 { job0 with stored := true })).baler 0).failed = true ∧
    after (.jobEnd 1 zeroStream true) (jobN 0 job0) = jobN 0 job0 := by decide +kernel
theorem test_job_too_large : -- 4,096 bytes under an allocation of 16 × 32 / 256 bytes
    let j : Job := job0
    let st := fun (head : Nat) (stream : List Byte) => (jobN head j).jobStatus j stream true
    st (32 * 2 ^ 40 + 2 ^ 39) (List.replicate 4096 0) = 1 ∧ st (32 * 2 ^ 40) (List.replicate 4096 0) = 1 := by decide +kernel
theorem test_flush :
    let s := cmdN .triggered (cw 6 1 0 0)
    let j := s.setBaler 0 { Baler.init with job := some { job0 with recs := [0, 0, 0] } }
    let claimed : State := { j with node := { j.node with rtClaims := [⟨7, 0, 8, 0⟩] } }
    status (after (.flush (.ring 0) 1) s) = some 0 ∧ status (after (.flush (.ring 0) 1) j) = some 0 ∧ claimed.balerClaimed 0 = true ∧
    (((after (.flush (.ring 0) 1) claimed).baler 0).job.map (fun x => (x.flushes, x.syncs))) = some ([.ring 0], [1]) ∧
    after (.flush (.ring 0) 2) (after (.flush (.ring 0) 1) claimed) = after (.flush (.ring 0) 1) claimed ∧
    status (after (.flush (.ring 0) 3) claimed) = some 0 := by decide +kernel

/-! ### Boundaries, bring-up, power and temperature -/

def sliceN (k : BitVec 12) (done : Bool) : State := { up with clock := { Clock.init with slice := k, epochDone := done } }
theorem test_slices :
    (after (.stepBoundary 8) up).clock.step = 1 ∧ (after .sliceBoundary (sliceN 4094 false)).clock.slice = 4095 ∧
    (after .sliceBoundary (sliceN 4095 false)).clock.epoch = 1 ∧ (after .epochBoundary (sliceN 4095 false)).clock.epochDone = true ∧
    (after .sliceBoundary (sliceN 0 true)).clock = (sliceN 0 false).clock ∧
    after .epochBoundary (sliceN 4094 false) = sliceN 4094 false := by decide +kernel
theorem test_epoch_time : -- 512 REFCLK periods of 6.25 ns in the slice, the last with the written INCR; a step of 2 units
    let s := sliceN 4095 false
    let t := after .epochBoundary { s with time := { s.time with incrDue := some (incrNominal + 5), stepDue := some 2 } }
    t.time.v = 511 * incrNominal + (incrNominal + 5) + 2 * 65536 ∧ t.time.incr = incrNominal + 5 := by decide +kernel
theorem test_run_begins :
    let s := sliceN 4095 false
    let t := after .epochBoundary { s with core := { s.core with startReq := true }, trig := { s.trig with nextNum := 9, mask := 1 } }
    t.core.running = true ∧ t.core.startAt = 2 ^ 24 ∧ t.trig.nextNum = 0 ∧ t.trig.mask = 0xFFFF := by decide +kernel
theorem test_words_take_effect :
    let s := (sliceN 7 false).setFe 0 { Fe.init with regionWait := some 9, tdcWait := some 8, feWait := some 7 }
    let f := (after .sliceBoundary s).fe 0
    (f.region.vote, f.tdcCtl, f.feCtl) = (9, 8, 7) := by decide +kernel
theorem test_still : -- power states and loss of power
    let s : State := { up with node := { up.node with pstate := .frost } }
    let f : State := { up with node := { up.node with pstate := .fallow } }
    after (.stepBoundary 8) s = s ∧ after (.stepBoundary 8) f = f ∧ after .sliceBoundary s = s ∧ after .epochBoundary s = s := by decide +kernel
theorem test_epoch_restart :
    let s : State := { sliceN 4095 false with node := { up.node with newEpoch := some 3 } }
    let s : State := { s with time := { s.time with v := (3 * 13107200 - 1000) * 2 ^ 32 } }
    s.counting = true ∧ 0 < s.time.incr ∧ s.edgesTo 3 ≤ 512 ∧ (after .epochRestart s).clock.epoch = 3 ∧ after .epochRestart up = up := by
  decide +kernel
theorem test_reference :
    ((after (.refLost 7) up).fe 3).hold = some 16 ∧ (after (.refLost 7) up).node.refLost = true ∧
    (after .refBack { up with node := { up.node with refLost := true, refSeen := true } }).node.refBack = true ∧
    after .refBack { up with node := { up.node with refLost := true } } = { up with node := { up.node with refLost := true } } ∧ after .refBack up = up := by decide +kernel
theorem test_watchdog :
    let s := running { holdX with watch := 4096 } []
    let s : State := { s with node := { s.node with prog := some { emptyProg with swdog := 4096 } } }
    let l := running { holdX with watch := 4095 } []
    let l : State := { l with node := { l.node with prog := some { emptyProg with swdog := 4096 } } }
    ((after (.sheafWatchdog 0) s).gleaner 0).fault = some (7, 0) ∧ after (.sheafWatchdog 0) l = l := by decide +kernel
theorem test_slice_release :
    let d := fun (r : Nat) => (⟨r, 0, [], [], 0, 0, false, false, [], 0⟩ : DoneSheaf)
    let s := sliceN 5 false
    let s : State := { s with core := { s.core with running := true, done := (List.range 8).map d }, ring := { s.ring with begun := true } }
    s.canRelease = true ∧ (after .sliceRelease s).core.nextSl = 1 ∧ (after .sliceRelease s).ring.newest = some 0 ∧
    up.canRelease = false ∧ after .sliceRelease up = up := by decide +kernel

theorem test_power_on :
    (after (.powerOnReset true none none) { up with node := { up.node with pwrgd := false } }).node.mode = .seed ∧
    (after (.powerOnReset false none none) up).node.refLost = true ∧ up.mayRestart = false ∧
    after .tripRestart up = up := by decide +kernel
/-- Tripped a second ago, cool since, with the automatic restart allowed. -/
def trippedN : State :=
  { up with
    node := { up.node with tripped := true, tripOtp := true }
    clock := { Clock.init with evals := 20000 }
    thermal := { Thermal.init with trips := [0], cool := some 0 } }
theorem test_trip_restart : trippedN.mayRestart = true ∧ (after .tripRestart trippedN).node.mode = .seed ∧
    (after .tripRestart trippedN).thermal.trips = [0] := by decide +kernel
def seedN : State := { State.reset with red := Red.init }
theorem test_seed_end : (after .seedEnd seedN).node.mode = .selftest ∧ (after .seedEnd seedN).hay.up = true ∧
    after .seedEnd up = up := by decide +kernel
theorem test_selftest :
    let s : State := { seedN with node := { seedN.node with mode := .selftest } }
    let good : SelftestResult := ⟨[], 16, 16⟩
    (after (.selftestFinished good good) s).red.lockstep = true ∧ (after (.selftestFinished good ⟨[], 24, 24⟩) s).ring.density = 16 ∧
    (after (.selftestFinished good good) { s with node := { s.node with simplex := true } }).red.hubA.role = .simplex ∧
    after (.selftestFinished good good) up = up := by decide +kernel
theorem test_power_fails :
    (after .pwrgdFall up).node.pwrgd = false ∧ (after .pwrgdFall up).loopA.set_ = 896 ∧
    after .pwrgdFall { up with node := { up.node with pwrgd := false } } = { up with node := { up.node with pwrgd := false } } := by decide +kernel
theorem test_test_port :
    Tbl.get .idcode (after (.jtagInstruction 3 .extest) up).node.jtag 3 = .bypass ∧
    Tbl.get .idcode (after (.jtagInstruction 3 .extest) seedN).node.jtag 3 = .extest ∧
    Tbl.get .idcode (after (.jtagInstruction 3 .sample) up).node.jtag 3 = .sample ∧
    (after .testLogicReset (after (.jtagInstruction 3 .sample) up)).node.jtag = [] := by decide +kernel
theorem test_rails :
    (after (.railFault 2 3) up).hay.fifo.map (·.code) = [0x7008] ∧ (after .xtalStop up).thermal.xtal = false ∧
    after (.railFault 2 3) { up with node := { up.node with pwrgd := false } } = { up with node := { up.node with pwrgd := false } } := by
  decide +kernel

theorem test_loop_current : loopCurrent 0 8000 0 = 1024 ∧ loopCurrent 0 8000 (256 * 8000) = 5120 ∧ loopCurrent 0 8000 (256 * 100000) = 5248 ∧
    loopCurrent 0 8000 (-256 * 100000) = 973 := by decide +kernel
theorem test_evaluation :
    let hot := List.replicate 40 (400 : Int)
    (after (.evaluation hot 0 0) up).thermal.alarmA = true ∧ (after (.evaluation hot 0 0) up).clock.evals = 1 ∧
    (after (.evaluation (List.replicate 40 387) 0 0) (after (.evaluation hot 0 0) up)).thermal.alarmA = false ∧
    (after (.evaluation hot 0 0) trippedN).loopA.set_ = 5632 ∧
    (after (.evaluation hot 0 0) { up with node := { up.node with pwrgd := false } }).loopA.set_ = 896 := by decide +kernel
theorem test_loop_words :
    let s := fun (w : Nat) => ({ up with loopA := { up.loopA with word := BitVec.ofNat 64 w } } : State)
    (after (.evaluation [] 0 0) (s (5 * 2 ^ 61 + 896 * 2 ^ 10))).loopA.set_ = 896 ∧
    (after (.evaluation [] 0 0) up).loopSource .a (8000 * 2 ^ 23) = none := by decide +kernel
theorem test_loop_fault :
    (after (.loopFault .a) { up with loopA := { up.loopA with meas := 961 } }).hay.fifo.map (·.code) = [0x7004] ∧
    after (.loopFault .a) { up with loopA := { up.loopA with meas := 960 } } = { up with loopA := { up.loopA with meas := 960 } } := by
  decide +kernel
theorem test_trip : -- one sensor does not trip; four trips in an hour latch
    let s : State := { up with node := { up.node with tripOtp := true } }
    after (.trip 0 1) s = s ∧ (after (.trip 0 3) s).node.tripped = true ∧ (after (.trip 0 3) s).thermal.latch = false ∧
    (after (.trip 0 3) { s with thermal := { s.thermal with trips := [0, 0, 0] } }).thermal.latch = true := by decide +kernel

/-! ### Memory -/

def winN (m : Mode) (w : Window) : State := { up with node := { up.node with mode := m }, window := w, ring := { up.ring with swept := true } }
theorem test_window :
    (after (.go .a) (winN .standby { Window.init with target := 1, data := 0x12345678, swpar := true })).window.word = 0x12345678 ∧
    (after (.go .a) (winN .standby Window.init)).window.count = 1 ∧ after (.go .a) (winN .triggered Window.init) = winN .triggered Window.init ∧
    (after (.rd .a 0) (winN .standby Window.init)).window.done = true ∧
    (after (.rd .a 2) (winN .standby { Window.init with target := 1 })).window.err = true := by decide +kernel
theorem test_refresh :
    let s : State := { up with thermal := { up.thermal with bands := [(0, 4)] } }
    s.band 0 = 4 ∧ (after (.refreshCommand .a) s).node.refreshA = true ∧ (after (.refreshCommand .b) s).node.refreshB = false := by
  decide +kernel
def memN : State := winN .triggered Window.init
theorem test_line_fetch : -- the last line of the ring; an error in the first try; in all three
    let n := memN.ring.size - 1
    lineGood n (memN.lineAt n) = true ∧ after (.lineFetch .a n []) memN = memN ∧
    lineGood n (memN.lineAt n ^^^ 1) = false ∧ (after (.lineFetch .a n [1]) memN).count (figMem .a 2 0) = 1 ∧
    (after (.lineFetch .a n [1, 1, 1]) memN).hay.fifo.map (·.code) = [0x4001] := by decide +kernel
theorem test_merge :
    memN.ring.entry 5 = none ∧ 5 < memN.ring.lineCount ∧
    (after (.mergeWrite 5 126 [1, 2]) memN).ring.merge.map (fun e => (e.line, e.locked)) = [(5, false)] ∧
    (after (.mergeEntryIdle 5) (after (.mergeWrite 5 126 [1, 2]) memN)).ring.merge.map (·.locked) = [true] ∧
    after (.lineWriteDone 5 []) memN = memN := by decide +kernel
def lockedE : MergeEntry := ⟨5, 7, 1, true⟩
theorem test_merge_locked :
    let s : State := { memN with ring := { memN.ring with merge := [lockedE] } }
    s.ring.entry 5 = some lockedE ∧ (after (.mergeWrite 5 0 [1]) s).count (figMemBoth 8 2) = 1 ∧
    (after (.mergeWrite 5 0 [1]) s).ring.mergeQ = [(5, 0, [1])] ∧ (after (.lineWriteDone 5 []) s).ring.merge = [] ∧
    ((after (.lineWriteDone 5 []) (after (.mergeWrite 5 0 [1]) s)).ring.merge.map (fun e => (e.line, e.locked))) = [(5, false)] := by decide +kernel
theorem test_scrub :
    let n := memN.ring.lineCount - 1
    memN.loaded = false ∧ memN.ring.nearWrite 0 = true ∧ (after (.scrubRead .a .line 0 []) memN).ring.scrubA.next = 1 ∧
    (after (.scrubRead .b .line 0 []) memN).ring.scrubB.next = 1 ∧ lineGood n (memN.lineAt n) = true ∧
    after (.scrubRead .a .line 1 []) memN = memN ∧
    (let s : State := { memN with ring := { memN.ring with scrubA := { memN.ring.scrubA with next := n } } }
     (after (.scrubRead .a .line n []) s).ring.scrubA.passes = 1) := by decide +kernel
theorem test_scrub_sram :
    after (.scrubRead .a .sramTable 0 []) memN = memN ∧
    (after (.scrubRead .a .sramTable 0 [1]) memN).hay.fifo.map (·.code) = [0x4004] := by decide +kernel
theorem test_parity_replay : -- odd parity: a word of zeros needs a 1
    let s := fun (n : Nat) => ({ up with gmem := { up.gmem with replays := Tbl.set 0 [] (stageCode (.hub .a 0)) n } } : State)
    let st : Stage := .hub .a 0
    parityOk 0 true = true ∧ (after (.parityReplay st 0) (s 2)).gmem.replays = [] ∧
    (after (.parityReplay st 1) (s 2)).gmem.replays = [(stageCode st, 3)] ∧
    (after (.parityReplay st 1) (s 3)).red.hubA.errs = [(.wordpoison, 0)] := by decide +kernel

/-! ### The host link -/

def epOn : Endpoint := { Endpoint.init with perst := true, linkUp := true, wired := true, bme := true }
def hostN (m : Mode) : State :=
  { up with node := { up.node with mode := m }, pcie := { up.pcie with epA := epOn, epB := epOn, touched := true } }
def codes (s : State) : List Nat := s.hay.fifo.map (·.code)
def outs (s : State) : List Out := s.pcie.outQ.map (·.2)
theorem test_doorbells :
    let s := hostN .triggered
    s.barServed .a = true ∧ up.barServed .a = false ∧ after (.sqtail .a 0 5) up = up ∧
    ((after (.sqtail .a 0 15) s).cring 0).sqtail = 15 ∧ ((after (.sqtail .a 0 16) s).cring 0).err = true ∧
    ((after (.cqhead .b 3 16) s).cring 3).err = true ∧ ((after (.econs .a 7 15) s).dring 7).econs = 15 ∧
    ((after (.econs .a 7 16) s).dring 7).err = true ∧ ((after (.dcons .a 0 1) s).dring 0).err = true ∧
    ((after (.dcons .a 0 0) s).dring 0).err = false ∧ ((after (.dcons .a 0 (0 - 0x4000)) s).dring 0).err = false ∧
    ((after (.sqtail .a 0 5) (hostN .seed)).ep .a).seedwr = 1 := by decide +kernel
theorem test_ring_enable :
    let s := hostN .triggered
    let r := (after (.commandRingEnable .a 0 0x800009CC) s).cring 0
    (r.en, r.run, r.sqlog, r.cqlog, r.vec, r.phase) = (true, true, 12, 12, 9, true) ∧
    ((after (.commandRingEnable .a 0 0x00000000) (after (.commandRingEnable .a 0 0x800009CC) s)).cring 0).sqlog = 12 ∧
    ((after (.commandRingEnable .a 0 0x80000011) (after (.commandRingEnable .a 0 0x800009CC) s)).cring 0).sqlog = 12 := by decide +kernel
theorem test_data_ring_enable :
    let s := hostN .triggered
    let r := (after (.dataRingEnable .a 2 0xE03FBC07) s).dring 2
    (r.en, r.run, r.compact, r.ro) = (true, true, true, true) ∧ (r.vec, r.elog, r.dlog, r.icnt) = (0x3F, 11, 12, 7) ∧
    ((after (.dataRingEnable .a 2 0x80010000) (after (.dataRingEnable .a 2 0xE03FBC07) s)).dring 2).dlog = 12 := by decide +kernel
theorem test_register_write :
    let s := hostN .standby
    let t := hostN .triggered
    after (.registerWrite .a 0x34 7 false false) s = s ∧ after (.registerWrite .a 0x36 7 false true) s = s ∧
    after (.registerWrite .a 0x1004 7 true true) s = s ∧ ((after (.registerWrite .b 0x34 7 false true) s).ep .b).scratch = 7 ∧
    (after (.registerWrite .a 0x2C 5 false true) s).pcie.mask = 5 ∧
    ((after (.registerWrite .a 0x1060 0x123456789ABCDEF0 true true) s).cring 3).sqbase = 0x123456789ABCDEF0 ∧
    ((after (.registerWrite .a 0x12C0 0x1000 true true) s).dring 7).dbase = 0x1000 ∧
    ((after (.registerWrite .a 0x12D4 0x55 false true) s).dring 7).imod = 0x55 ∧
    (after (.registerWrite .a 0x1300 0x6543210 true true) s).pcie.select = 0x6543210 ∧
    (after (.registerWrite .a 0x2088 7 false true) s).window.mark = 7 ∧ (after (.registerWrite .a 0x208C 7 false true) s).window.crc = 7 ∧
    (after (.registerWrite .a 0x2008 1 false true) s).window.swpar = true ∧
    (after (.registerWrite .a 0x2084 7 false true) s).window.data = 7 * 2 ^ 928 ∧
    after (.registerWrite .a 0x2088 7 false true) t = t := by decide +kernel
theorem test_register_write_enabled :
    let s := after (.dataRingEnable .a 0 0x80000000) (after (.commandRingEnable .a 0 0x80000000) (hostN .triggered))
    (s.cring 0).en = true ∧ (s.dring 0).en = true ∧ after (.registerWrite .a 0x1000 7 true true) s = s := by decide +kernel
theorem test_register_reads :
    let s := hostN .triggered
    let s : State := { s with pcie := { s.pcie with cause := 0xF }, clock := { s.clock with step := 0x200000003 } }
    let s := s.setEp .a { epOn with seedwr := 4 }
    (after (.causeClear .a 5) s).pcie.cause = 0xA ∧ ((after (.seedwrRead .a) s).ep .a).seedwr = 0 ∧
    (after (.seedwrRead .a) s).pcie.out = [.read .a 0x30 4] ∧ (after (.stepLoRead .a true) s).pcie.out = [.read .a 0x38 0x200000003] ∧
    ((after (.stepLoRead .a false) s).ep .a).stepHi = 2 := by decide +kernel
theorem test_configuration :
    let s := hostN .triggered
    (after (.configurationRequest .a false 0 0 true) s).pcie.out = [.retry .a] ∧
    (after (.configurationRequest .b false 0 0 false) s).pcie.out = [.read .b 0x10000 0x40971F3B] ∧
    after (.configurationRequest .a true 4 0 false) up = up := by decide +kernel
theorem test_link :
    let s := hostN .triggered
    let dn := s.setEp .a { epOn with perst := false, linkUp := false, wired := false }
    let rd := s.setEp .b { epOn with linkUp := false, wired := false }
    let nw := s.setEp .a { epOn with wired := false }
    ((after (.perst .a false) dn).ep .a).perst = true ∧ ((after (.perst .a true) nw).ep .a).linkUp = false ∧
    ((after (.pciedown .a true) dn).ep .a).perst = false ∧ codes (after (.pciedown .a false) s) = [0x5006] ∧
    ((after (.pcieLinkUp .b 4 4) rd).ep .b).linkUp = true ∧
    after (.pcieLinkUp .b 4 4) { rd with node := { rd.node with simplex := true } } = { rd with node := { rd.node with simplex := true } } := by
  decide +kernel

def waitN : State :=
  let s := hostN .standby
  s.setCring 0 (ringW (cw 2 2 0 0))
theorem test_completions :
    readsHost (cw 2 2 0 0) = true ∧ (waitN.cring 0).cmd ≠ none ∧ waitN.live = true ∧
    (((after (.completionTlp (.ring 0) 64 .success false false) waitN).cring 0).cmd.map (·.bytes)) = some 64 ∧
    status (after (.completionTimeout (.ring 0)) waitN) = some 0x1F ∧ status (after (.completionTlp (.ring 0) 64 .unsupported false false) waitN) = some 0x1F ∧
    status (after (.completionTlp (.ring 0) 64 .success true false) waitN) = some 0x1F ∧
    status (after (.completionTlp (.ring 0) 64 .success false true) waitN) = some 0x1F ∧
    (after (.completionTlp (.ring 0) 64 .success false true) waitN).count (figPcie 3 3 whole 1) = 1 := by decide +kernel
theorem test_ack :
    let s : State := { waitN with pcie := { waitN.pcie with replay := [(4, .retry .a), (5, .retry .b)] } }
    (after (.pcieAck 4) s).pcie.acked = 4 ∧ (after (.pcieAck 4) s).pcie.replay = [(5, .retry .b)] := by decide +kernel
def partX : Machine.Part := ⟨3, 1, 1000, 0, 1000, 1, 0, 0, [7], 5, none, 0, 1, [], [], 0, false⟩
def partN (r : DataRing) : State :=
  let s := hostN .triggered
  ({ s with trig := { s.trig with staging := [partX] } } : State).setDring 0 r
def ringD : DataRing := { DataRing.init with en := true, run := true }
theorem test_part_delivery : -- one part of 32 + 16 bytes
    let s := partN ringD
    s.nextPart 0 = some partX ∧ s.mayMaster = true ∧ s.partBusy partX 0 = false ∧ (s.partBytes partX 0 false).1.length = 48 ∧
    ringD.slotFree = true ∧ 1 ≤ ringD.units - ringD.fill ∧ 1 < ringD.units ∧ ringD.units = 2 ^ 14 ∧
    (after .partDelivery s).trig.staging = [] ∧ ((after .partDelivery s).dring 0).dprod = 1 ∧
    ((after .partDelivery s).dring 0).etail = 1 ∧
    (after .partDelivery (partN DataRing.init)).count (figPcie 4 2 0) = 1 ∧
    ((after .partDelivery (partN { ringD with etail := 15 })).dring 0).stall = true ∧
    up.nextPart 0 = none ∧ after .partDelivery up = up := by decide +kernel
/-- A raw part of as many bytes as the smallest ring holds; with its header it can never fit. -/
def wideP : Machine.Part := { partX with raw := some (List.replicate (64 * 2 ^ 14) 0) }
def wideN : State := { partN ringD with trig := { up.trig with staging := [wideP] } }
theorem test_part_too_large : wideN.nextPart 0 = some wideP ∧ ringD.units ≤ ((wideN.partBytes wideP 0 false).1.length + 63) / 64 := by
  refine ⟨rfl, ?_⟩
  have h : ringD.units = 16384 := by decide
  have h2 : 64 * 2 ^ 14 ≤ (wideN.partBytes wideP 0 false).1.length := by
    simp only [State.partBytes, wideP, partX, pad8, List.length_append, List.length_replicate]
    omega
  omega
theorem test_service_delivery :
    let s : State := { partN ringD with pcie := { (partN ringD).pcie with svc := [(4, [1, 2, 3, 4, 5])] } }
    let s := s.setDring 7 ringD
    (s.dring 7).slotFree = true ∧ ((after .serviceDelivery s).dring 7).dprod = 2 ∧ (after .serviceDelivery s).pcie.svc = [] ∧
    ((after .serviceDelivery (s.setDring 7 { ringD with etail := 15 })).dring 7).stall = true := by decide +kernel
theorem test_moderation : -- 100 µs are 120,000 cycles, 468.75 steps
    let s := fun (k : Nat) =>
      ({ hostN .triggered with clock := { up.clock with step := k } } : State).setDring 3 { ringD with since := 2, timer := some 0, vec := 6 }
    outs (after (.imodExpiry 3) (s 468)) = [.msix .a 6] ∧ ((after (.imodExpiry 3) (s 468)).dring 3).since = 0 ∧
    after (.imodExpiry 3) (s 467) = s 467 := by decide +kernel

/-! ### The ports -/

/-- Port 1 with a role, its copy of hub A in this state, the rates of its table word. -/
def portN (role : Nat) (c : PortCopy) : State :=
  let s : State := { up with node := { up.node with rtClaims := [⟨0x0A, 1, 0, role⟩], mode := .hub } }
  let s : State := { s with tables := Tbl.set [] [] idPresets (cellsOf (leBytes 8 (7 * 2 ^ 4))) }
  s.setPort 1 (({ Port.init with rxseq := 4, txseq := 9 } : Port).setCopy .a c)
def copyS (st : PortState) : PortCopy := { PortCopy.init with st := st }
def wordOf (st rates role req done : Nat) : BitVec 56 :=
  BitVec.ofNat 56 (st * 2 ^ 52 + rates * 2 ^ 49 + role * 2 ^ 45 + req * 2 ^ 40 + done * 2 ^ 37)
def laneX (pre post : Nat) : Lane := { Lane.init with pre := pre, post := post }
def eqN (l : Lane) : State := portN 1 ((copyS .eq).setLane 2 l)
def laneOf (s : State) : Nat × Nat := let l := ((s.port 1).copyA.lane 2); (l.pre, l.post)
theorem test_training_requests :
    let go := fun (req : Nat) (l : Lane) => laneOf (after (.trainingWord .a 6 (wordOf 2 7 0 req 0) false) (eqN l))
    (eqN (laneX 3 4)).portRole 1 = 1 ∧ (copyS .eq).lane 0 = Lane.init ∧ go 1 (laneX 3 4) = (4, 4) ∧ go 1 (laneX 15 4) = (15, 4) ∧
    go 1 (laneX 3 29) = (3, 29) ∧ go 2 (laneX 3 4) = (2, 4) ∧ go 3 (laneX 3 4) = (3, 5) ∧ go 3 (laneX 3 31) = (3, 31) ∧
    go 4 (laneX 3 4) = (3, 3) ∧ go 5 (laneX 3 4) = (0, 0) ∧ go 0 (laneX 3 4) = (3, 4) ∧ go 6 (laneX 3 4) = (3, 4) := by decide +kernel
theorem test_training_states :
    let det := copyS .detect
    let full := fun (st : PortState) => [0, 1, 3].foldl (fun (c : PortCopy) k => c.setLane k { Lane.init with word := some (wordOf 2 7 0 0 1), conv := true }) (copyS st)
    let bad : PortCopy := { det with downSaid := true, roleSaid := true }
    after (.trainingWord .a 6 0 false) (portN 1 (copyS .up)) = portN 1 (copyS .up) ∧
    ((after (.trainingWord .a 6 (wordOf 0 7 1 0 0) false) (portN 1 bad)).port 1).copyA.st = .backoff ∧
    ((after (.trainingWord .a 6 (wordOf 2 7 0 0 1) true) (portN 1 (full .eq))).port 1).copyA.st = .align := by decide +kernel
theorem test_training_timeouts :
    let t := fun (c : PortCopy) => ((after (.trainingTimeout .a 1) (portN 1 c)).port 1).copyA
    (t (copyS .detect)).st = .backoff ∧ (t (copyS .link)).st = .backoff ∧ (t (copyS .wake)).st = .backoff ∧ (t (copyS .eq)).st = .align ∧
    (t { copyS .align with rate := 2 }).st = .link ∧ (t { copyS .align with rate := 2 }).cap = 1 ∧
    (t { copyS .align with rate := 0 }).st = .backoff ∧ (portN 1 (copyS .up)).rateMask 1 = 7 ∧
    codes (after (.trainingTimeout .a 1) (portN 1 (copyS .detect))) = [0x5002] := by decide +kernel
theorem test_backoff :
    let t := fun (w : Nat) => ((after (.backoffExpiry .a 1) (portN 1 { copyS .backoff with wait := w })).port 1).copyA
    (t 511).wait = 1022 ∧ (t 512).wait = 1000 ∧ (t 1000).wait = 1000 ∧ (t 1).st = .detect ∧
    after (.backoffExpiry .a 1) (portN 1 (copyS .eq)) = portN 1 (copyS .eq) := by decide +kernel
theorem test_port_markers :
    let m := fun (c : PortCopy) (q : BitVec 16) (skew : Nat) => after (.fodafortMarker .a 1 [3, 0, 2, 1] [q, q, q, q] skew) (portN 1 c)
    let u := { copyS .up with markerKnown := true, marker := 0xFFFF }
    ([3, 0, 2, 1] : List (BitVec 2)).Perm [0, 1, 2, 3] ∧ ((m (copyS .align) 5 180000).port 1).copyA.st = .up ∧
    ((m { copyS .align with fresh := true } 5 0).port 1).txseq = 1 ∧ ((m { copyS .align with fresh := false } 5 0).port 1).txseq = 9 ∧
    m (copyS .align) 5 180001 = portN 1 (copyS .align) ∧ ((m u 0 180001).port 1).copyA.st = .align ∧
    ((m u 0 0).port 1).copyA.badSeq = 0 ∧ ((m u 1 0).port 1).copyA.badSeq = 1 ∧
    ((m { u with badSeq := 1 } 1 0).port 1).copyA.st = .align ∧ codes (m { u with badSeq := 1 } 1 0) = [0x5004] := by decide +kernel
theorem test_wake :
    let i : PortCopy := { copyS .up with idle := true, quiet := true }
    ((after (.wake .a 1) (portN 1 i)).port 1).copyA.txMarker = 1 ∧ after (.wake .a 1) (portN 1 (copyS .up)) = portN 1 (copyS .up) ∧
    ((after (.wakeTimeout .a 1) (portN 1 i)).port 1).copyA.st = .align ∧
    after (.wakeTimeout .a 1) (portN 1 (copyS .up)) = portN 1 (copyS .up) := by decide +kernel
/-- A frame laid out as R314 says, and one whose CRC does not match. -/
def frameX (type : Nat) (fseq : BitVec 16) (bs : List Byte) : PortFrame := portFrame type false fseq bs
def badX (type : Nat) (fseq : BitVec 16) (bs : List Byte) : PortFrame := { frameX type fseq bs with crc := (frameX type fseq bs).crc ^^^ 1 }
/-- First frame, last frame, trigger 7, part 0: the first 8 bytes of a DATA payload. -/
def headX (first last : Nat) : List Byte := leBytes 8 (7 + first * 2 ^ 55 + last * 2 ^ 54)
theorem test_frames :
    let n := portN 0 (copyS .up)
    after (.dataFrame .a 1 (frameX 1 5 [])) (portN 0 (copyS .align)) = portN 0 (copyS .align) ∧
    (after (.dataFrame .a 1 (badX 1 5 [])) n).count (figFoda 5 10 1) = 1 ∧ n.portIsMerge 1 = false ∧
    ((after (.primFrame .a 1 (frameX 2 5 [])) n).port 1).rxseq = 5 ∧
    (after (.primFrame .a 1 (frameX 2 8 [])) n).count (figFoda 6 1 1) = 3 ∧
    ((after (.dataFrame .a 1 (frameX 1 (4 + 32767) [])) n).port 1).rxseq = 4 + 32767 := by decide +kernel
theorem test_merge_frames :
    let n := portN 2 (copyS .up)
    let r : RxPart := ⟨7, 0, [1], false⟩
    let c := n.setPort 1 { n.port 1 with rx := some r }
    n.portIsMerge 1 = true ∧ (leAt (headX 1 0) 0 8).testBit 54 = false ∧ (leAt (headX 1 0) 0 8).testBit 55 = true ∧
    ((after (.dataFrame .a 1 (frameX 1 5 (headX 1 0 ++ [2]))) n).port 1).rx = none ∧
    ((after (.dataFrame .a 1 (frameX 1 5 (headX 1 0 ++ leBytes 8 2))) n).port 1).rx = some ⟨7, 0, leBytes 8 2, false⟩ ∧
    ((after (.dataFrame .a 1 (frameX 1 5 (headX 0 0 ++ leBytes 8 2))) c).port 1).rx = some ⟨7, 0, 1 :: leBytes 8 2, false⟩ := by
  decide +kernel
theorem test_control_words :
    let n := portN 0 (copyS .up)
    let u : List (Nat × BitVec 16 × Nat × List Byte) := [(1, 7, 0, []), (1, 8, 0, [])]
    let n := n.setPort 1 { n.port 1 with unacked := u }
    ((after (.fodafortPause .a 1) n).port 1).paused = true ∧
    ((after (.fodafortResume .a 1) (after (.fodafortPause .a 1) n)).port 1).paused = false ∧
    laterMod 16 (8 : BitVec 16).toNat ((9 : BitVec 16) - 1).toNat = false ∧ laterMod 16 (9 : BitVec 16).toNat ((9 : BitVec 16) - 1).toNat = true ∧
    ((after (.fodafortAck .a 1 7) n).port 1).unacked = [(1, 8, 0, [])] ∧ ((after (.fodafortAck .a 1 8) n).port 1).unacked = [] ∧
    ((after (.fodafortAck .a 1 9) n).port 1).unacked = u ∧ outs (after (.quiet .a 1) n) = [.ctrl (some .a) 1 4 0] ∧
    ((after (.pauseExpiry 1) (after (.fodafortPause .a 1) n)).port 1).paused = false ∧
    outs (after (.mergePauseRepeat 1) (n.setPort 1 { n.port 1 with pauseOut := true })) = [.ctrl none 1 2 0] ∧
    codes (after (.ffnoack 1) n) = [0x5005] ∧ ((after (.ffnoack 1) n).port 1).copyA.st = .align := by decide +kernel
theorem test_merge_timeout :
    let n := portN 2 (copyS .up)
    let s : State := { n with foda := { n.foda with sets := [⟨7, 1, [], []⟩] } }
    (after (.mergeTimeout 7 1) s).foda.sets = [] ∧ (7, 1) ∈ (after (.mergeTimeout 7 1) s).foda.closed ∧
    after (.mergeTimeout 8 1) s = s ∧ (after (.mergeTimeout 7 1) s).count (figFoda 8 1) = 1 := by decide +kernel

/-! ### Time -/

/-- Port 1 trimmed to 59 ns of egress and 72 ns of ingress. -/
def timeN (role : Nat) (slave : Option Nat) : State :=
  let s := portN (8 + role) (copyS .up)
  { s with time := { s.time with w1 := 700 * 2 ^ 16, w2 := 950 * 2 ^ 16, win := some (1, 2, 3), slave := slave, own := slave.isNone } }
/-- A TIME frame with a message, VER, SEQID, NODE 9, TS 1,000 ns and the tuple 4, 5, 6, word by word as R338 lays them out. -/
def tf (msg ver q : Nat) : PortFrame :=
  portFrame 3 false 0 (leBytes 8 (msg * 2 ^ 60 + ver * 2 ^ 56 + q * 2 ^ 40 + 9 * 2 ^ 24) ++ leBytes 8 0 ++ leBytes 8 1000 ++
    leBytes 8 (4 * 2 ^ 56 + 5 * 2 ^ 40 + 6 * 2 ^ 32))
-- A stamp at the edge that starts the ninth REFCLK period: 50 ns; the payload with 50 + 59 ns, byte by byte.
theorem test_time_sent :
    let m := timeN 0 none
    m.timeOpen 1 = true ∧ m.masterOn 1 = true ∧
    outs (after (.syncInterval [⟨0, 0⟩, ⟨8, 0⟩, ⟨0, 0⟩, ⟨0, 0⟩]) m) =
      [.time 1 ([0, 0, 0, 0, 0, 0, 0, 0x11] ++ List.replicate 8 0 ++ [109, 0, 0, 0, 0, 0, 0, 0] ++ List.replicate 8 0)] ∧
    outs (after .announceInterval m) =
      [.time 1 ([0, 0, 0, 0, 0, 0, 0, 0x41] ++ List.replicate 16 0 ++ [0, 0, 0, 0, 3, 2, 0, 1])] ∧
    after .announceInterval { m with node := { m.node with pstate := .frost } } = { m with node := { m.node with pstate := .frost } } := by
  decide +kernel
theorem test_time_received :
    let v := timeN 0 (some 1)
    let open_ := after (.sync .a 1 (tf 1 1 7) ⟨8, 0⟩ 76 0 ⟨16, 0⟩) v
    v.portTime 1 = true ∧ (portN 0 (copyS .up)).portTime 1 = false ∧ v.masterOn 1 = false ∧
    (after (.sync .a 1 (tf 1 2 7) ⟨0, 0⟩ 0 0 ⟨0, 0⟩) v).count (figTime 5 1 1) = 1 ∧
    (after (.sync .a 1 (tf 2 1 7) ⟨0, 0⟩ 0 0 ⟨0, 0⟩) v).count (figTime 5 2 1) = 1 ∧
    (after (.dresp .a 1 (tf 3 1 7)) (portN 0 (copyS .up))).count (figTime 5 0 1) = 1 ∧
    (after (.dresp .a 1 { tf 3 1 7 with crc := 0 }) v).count (figFoda 5 10 1) = 1 ∧
    (open_.port 1).exch.map (fun e => (e.seqid, e.t1, e.t2, e.t3)) =
      some (7, 1000 * 65536, (50 - 72) * 65536, (100 + 59) * 65536) ∧
    ((after (.dresp .a 1 (tf 3 1 7)) open_).port 1).last.length = 1 ∧
    (after (.dresp .a 1 (tf 3 1 8)) open_).count (figTime 4 2 1) = 1 := by decide +kernel
theorem test_time_answers :
    let v := timeN 0 (some 1)
    let m := timeN 0 none
    let open_ := after (.sync .a 1 (tf 1 1 7) ⟨8, 0⟩ 76 0 ⟨16, 0⟩) v
    (after (.exchangeTimeout 1) open_).count (figTime 4 2 1) = 1 ∧ after (.exchangeTimeout 1) v = v ∧
    outs (after (.sync .a 1 (tf 1 1 7) ⟨0, 0⟩ 0 0 ⟨0, 0⟩) m) = [] ∧ (outs (after (.dreq .a 1 (tf 2 1 7) ⟨0, 0⟩ 76 0) m)).length = 1 ∧
    outs (after (.dreq .a 1 (tf 2 1 7) ⟨0, 0⟩ 76 0) v) = [] ∧
    ((after (.announce .a 1 (tf 4 1 7)) v).port 1).cand.map (fun c => (c.prio, c.gmid, c.steps)) = some (4, 5, 6) := by decide +kernel
def pulseN (g : ToutGen) (d : Option Hub) : State :=
  let s : State := { up with red := { up.red with drive := d } }
  s.setGen 2 g
def genX : ToutGen := { ToutGen.init with en := true, start := 0, period := 0, width := 5, pin := true, count := 1 }
theorem test_tout_pulse :
    let s := pulseN genX (some .a)
    genX.hasNext = true ∧ (after (.toutPulse 2 0) s).pcie.out = [.tout 2 true] ∧ ((after (.toutPulse 2 0) s).gen 2).trail = some 5 ∧
    (after (.toutPulseEnd 2 4) (after (.toutPulse 2 0) s)) = after (.toutPulse 2 0) s ∧
    (after (.toutPulseEnd 2 5) (after (.toutPulse 2 0) s)).pcie.out = [.tout 2 true, .tout 2 false] ∧
    after (.toutPulse 2 0) (pulseN { genX with start := 10 ^ 6 * 2 ^ 32 } (some .a)) = pulseN { genX with start := 10 ^ 6 * 2 ^ 32 } (some .a) ∧
    codes (after (.toutPulse 2 0) (pulseN genX none)) = [0x2007] ∧
    (after (.toutPulse 2 0) (pulseN { genX with evt := true } (some .a))).mon.arriving = [4] ∧
    ((after (.toutPulse 2 0) (pulseN { genX with evt := true } (some .a))).fe 7).injDue = [128] := by decide +kernel

/-! ### The two hubs -/

def redN (r : Red) : State := { up with red := r, clock := { up.clock with step := 9 } }
def pairR : Red := { Red.init with lockstep := true }
def faultyB : Red := { Red.init with hubB := { HubRed.init .faulty with errs := [(.clkloss, 1)] } }
theorem test_hub_errors :
    let s := redN pairR
    codes (after (.hubSilent .a) s) = [0x6008] ∧ (after (.hubSilent .a) s).red.silentA = true ∧
    after (.hubSilent .a) (redN { pairR with silentA := true }) = redN { pairR with silentA := true } ∧
    (after (.stepskew .b) s).red.hubB.errs = [(.stepskew, 9)] ∧ codes (after (.clkLoss .b) s) = [0x600C] ∧
    (after (.localError .b .dirfix) s).red.hubB.errs = [(.dirfix, 9)] ∧ codes (after (.localError .b .memlate) s) = [0x600A] ∧
    after (.localError .b .clkloss) (redN faultyB) = redN faultyB ∧ after (.stepskew .b) trippedN = trippedN := by decide +kernel
theorem test_digests :
    let s := redN { pairR with digOwn := [(9, 7)] }
    (after (.digest 9 8) s).red.digPart = [(9, 8)] ∧ after (.digest 9 8) (redN Red.init) = redN Red.init := by decide +kernel
theorem test_switch :
    let s := fun (k : Nat) => redN { Red.init with active := .b, drive := none, switchAt := some k }
    (after .replayRelease (s 7)).red.drive = some .b ∧ after .replayRelease (s 8) = s 8 ∧
    after .replayRelease (redN pairR) = redN pairR := by decide +kernel
theorem test_drive_held :
    let s := redN { Red.init with active := .b, drive := some .a, lastSwitch := 5 }
    (3 : Nat) ≤ s.node.mode.num ∧ (after .driveHeld s).node.mode = .safe ∧ 0x6006 ∈ codes (after .driveHeld s) ∧
    after .driveHeld (redN { Red.init with active := .b, drive := some .a, lastSwitch := 6 }) =
      redN { Red.init with active := .b, drive := some .a, lastSwitch := 6 } := by decide +kernel
theorem test_stile :
    (after (.stileLost false) (redN pairR)).red.hubB.role = .faulty ∧ codes (after (.stileLost false) (redN pairR)) = [0x6007] ∧
    (after (.stileLost true) (redN { pairR with silentA := true })).red.active = .b ∧
    (after (.stileLost true) (redN { pairR with silentA := true })).red.switchAt = some 9 ∧
    (after (.stileLost false) (redN Red.init)).red = { Red.init with stileUp := false } ∧
    after (.stileLost false) (redN { pairR with stileUp := false }) = redN { pairR with stileUp := false } := by decide +kernel
theorem test_rejoin :
    let s := redN faultyB
    (after (.rejoin .b none) s).red.hubB.joinPhase = 5 ∧ (after (.rejoin .b (some 2)) s).red.hubB.failPhase = 2 ∧
    codes (after (.rejoin .b (some 2)) s) = [0x6004] ∧ after (.rejoin .a none) s = s := by decide +kernel
theorem test_fifo :
    let s := redN pairR
    let alone := redN Red.init
    (after (.fifoPointerMismatch .a .memWrite 0) s).red.hubA.errs = [(.memwrite, 9)] ∧
    (after (.fifoPointerMismatch .b .stileRx 0) s).red.stileUp = false ∧
    (after (.fifoPointerMismatch .a .mailbox 3) { alone with core := { alone.core with mailbox := [⟨0, 0, 0, 0, false⟩] } }).core.mailbox = [] ∧
    codes (after (.fifoPointerMismatch .b .tcmd 0) s) = [0x1004] ∧
    (after (.fifoPointerMismatch .b .tcmd 0) s).red.fifoReset = [(.b, .tcmd)] ∧
    (after (.fifoResetEnd .b .tcmd) (after (.fifoPointerMismatch .b .tcmd 0) s)).red.fifoReset = [] := by decide +kernel

/-! ### Monitoring and loops -/

/-- Two regular entries, the second enabled; an injected one on trigger 4; both with INP = 1 and no record. -/
def monM : Monitor :=
  { Monitor.init with
    header := BitVec.ofNat 64 (2 * 2 ^ 54)
    regular := [(1, BitVec.ofNat 64 (2 ^ 63 + 2 ^ 45))]
    injected := [(3, BitVec.ofNat 64 (2 ^ 63 + 4 * 2 ^ 7))] }
def monS (m : Monitor) : State := { up with mon := m }
def curM (inj : Bool) (e : Nat) (p : MonPhase) : Monitor := { monM with pass := true, next := 2, cur := some ⟨inj, e, p⟩ }
theorem test_pass :
    monM.nreg = 2 ∧ (after .regularPass (monS monM)).mon.cur = some ⟨false, 1, .brk⟩ ∧ Monitor.init.nreg = 0 ∧
    after .regularPass (monS Monitor.init) = monS Monitor.init ∧
    (after .regularPass (monS { monM with regWait := some (5, 6, []) })).mon.header = 5 ∧
    after .regularPass (monS { monM with pass := true }) = monS { monM with pass := true } := by decide +kernel
theorem test_phases :
    let t := fun (p : MonPhase) => (after (.monitorPhaseEnd [] [] false 0) (monS (curM false 1 p))).mon.cur.map (·.phase)
    t .brk = some .discharge ∧ t .discharge = some .settle ∧ t .settle = some .convert := by decide +kernel
theorem test_monitor_conversion : -- codes 100 and 101: mean 100.5 in 1/256
    let t := fun (xs : List (Fin 5 × Int)) (m : Monitor) => (after (.monitorPhaseEnd xs [] false 8) (monS m))
    Tbl.get none (t [(0, 100), (1, 101)] (curM false 1 .convert)).mon.results 1 = some ⟨0, 25728, 0⟩ ∧
    ((t [(0, 100)] (curM false 1 .convert)).core.service.map (·.toNat / 2 ^ 110)) = [7 * 2 ^ 14 + 1 * 2 ^ 7] ∧
    (Tbl.get none (t [(0, 32767)] (curM false 1 .convert)).mon.results 1).map (·.stat) = some 2 ∧
    (t [] { curM true 3 .convert with todo := [5, 6] }).mon.cur = some ⟨true, 5, .brk⟩ ∧
    (t [] { curM false 1 .convert with pause := true }).mon.cur = none ∧
    (t [] { curM false 0 .convert with next := 1 }).mon.cur = some ⟨false, 1, .brk⟩ := by decide +kernel
theorem test_injected :
    let m := { monM with arriving := [4] }
    (after (.injectedTrigger 4) (monS m)).mon.cur = some ⟨true, 3, .brk⟩ ∧ (after (.injectedTrigger 4) (monS m)).mon.trig = some 4 ∧
    (after (.injectedTrigger 4) (monS { curM false 1 .settle with arriving := [4] })).mon.abandoned = some 1 ∧
    (after (.injectedTrigger 4) (monS { m with trig := some 2 })).mon.pending = [4] ∧
    (after (.injectedTrigger 4) (monS { m with trig := some 2, pending := [4] })).count (figEnviron 4 3 4) = 1 ∧
    after (.injectedTrigger 5) (monS m) = monS m ∧ (after .blankPauseEnd (monS { monM with pause := true })).mon.pause = false := by decide +kernel
theorem test_open : -- the enabled regular entry has its current source on
    let s := monS (curM false 1 .settle)
    (Tbl.get none (after (.complianceTrip .source 0) s).mon.results 1).map (·.stat) = some 1 ∧
    (after (.complianceTrip .source 0) s).count (figEnviron 4 4 1) = 1 ∧
    after (.complianceTrip .source 0) (monS (curM false 0 .settle)) = monS (curM false 0 .settle) ∧
    (let e := monS { monM with header := 0xFFFFFFFFFFFFFFFF }
     e.mon.excen = true ∧ codes (after (.complianceTrip .excOpen 0) e) = [0x7003]) := by decide +kernel

/-- Loop 1 enabled on its own string: H 10, set point 100, RATE 3, TLIM 50, KI 1/2, running on its on-phase with centre 100. -/
def loopL : LoopSt :=
  { LoopSt.init with
    w0 := BitVec.ofNat 64 (2 ^ 63 + 10 * 2 ^ 10), w1 := BitVec.ofNat 64 (100 * 2 ^ 32 + 3), w2 := BitVec.ofNat 64 (50 * 2 ^ 40 + 32768)
    w3 := BitVec.ofNat 64 (8000 * 2 ^ 24 + 128 * 2 ^ 8), ramp := 90, centre := 100, onPhase := true }
def loopS (l : LoopSt) : State := up.setLoop 1 l
def loopAt (i : Instr) (l : LoopSt) : LoopSt := (after i (loopS l)).loop 1
theorem test_loop_law :
    (loopL.runs, loopL.fbsrc, loopL.gmode, loopL.h, loopL.off) = (true, 0, 0, 10, false) ∧
    (loopAt (.lcsCrossing 1 89) loopL).out = true ∧ (loopAt (.lcsCrossing 1 90) loopL).out = false ∧
    (loopAt (.lcsCrossing 1 110) { loopL with out := true }).out = true ∧ (loopAt (.lcsCrossing 1 111) { loopL with out := true }).out = false ∧
    (loopAt (.lcsCrossing 1 5121) { loopL with out := true, hold := true }).out = false ∧
    (loopAt (.lcsCrossing 1 89) { loopL with hold := true }).out = false ∧
    (loopAt (.ldgHoldEnd 1 89) { loopL with hold := true }).out = true ∧
    after (.lcsCrossing 1 89) (loopS { loopL with starting := true }) = loopS { loopL with starting := true } := by decide +kernel
theorem test_loop_period : -- samples of mean 80: TRIM + (KI × 10) and the ramp 3 on
    let p := fun (sum onc cyc : Nat) (o : Bool) (l : LoopSt) => loopAt (.loopPeriod 1 sum onc cyc o) l
    let m := p 640 3 8 false loopL
    loopL.felim = 0 ∧ loopL.nfrz = 0 ∧ (m.last, m.ramp, m.trim, m.centre) = (80, 93, 5, 98) ∧ (p 640 8 8 false loopL).trim = 0 ∧
    (p 0 0 0 false loopL).sample = none ∧ (p 640 3 8 false { loopL with starting := true }).centre = 80 ∧
    (p 0 3 8 true loopL).lostRow = 1 ∧ (p 0 3 8 true { loopL with lostRow := 1 }).fault = some .fbloss ∧
    (p 640 3 8 false { loopL with w2 := BitVec.ofNat 64 (9 * 2 ^ 16), w3 := 0 }).fault = some .follow ∧
    after (.loopPeriod 1 0 0 0 false) up = up := by decide +kernel
theorem test_pwm :
    (loopAt (.pwmOnEnd 1) { loopL with out := true }).out = false ∧ (loopAt (.pwmOnEnd 1) { loopL with onPhase := false }).onPhase = false ∧
    (let l := { loopL with onPhase := false, scaleWait := some (65536, false, false) }
     (loopAt (.pwmPeriod 1) l).onPhase = true ∧ (loopAt (.pwmPeriod 1) { l with scaleWait := some (65536, true, false) }).onPhase = false) := by
  decide +kernel
theorem test_gate_windows :
    let g := { loopL with w3 := 2 ^ 7, due := 2 }
    g.gmode = 2 ∧ (loopAt (.gateWindowOpen 1) g).out = true ∧ (loopAt (.gateWindowOpen 1) g).due = 1 ∧
    (loopAt (.gateWindowClose 1) (loopAt (.gateWindowOpen 1) g)).opens = 0 ∧ (loopAt (.gateWindowClose 1) { g with opens := 2 }).opens = 1 ∧
    after (.gateWindowOpen 1) (loopS loopL) = loopS loopL := by decide +kernel
theorem test_lamp_ntc :
    let s : State := { loopS loopL with tables := Tbl.set [] [] idDerating (cellsOf (leBytes 8 0x8000)) }
    (s.derByte 1).testBit 7 = true ∧ ((after (.lampNtc 1) s).loop 1).scaleWait = some (65536, false, true) ∧
    codes (after (.lampNtc 1) s) = [0x8002] ∧ (up.derByte 1).testBit 7 = false ∧ after (.lampNtc 1) up = up := by decide +kernel

/-! ### Hayward and the tallies -/

def ev1 : EvWord := ⟨0x1001, 1, 0, [5, 6], 0, 3 * 2 ^ 32⟩
def hayN (h : Hayward) : State := { up with hay := { h with up := true } }
theorem test_event :
    let s := hayN { Hayward.init with fifo := [ev1] }
    let t := after .event s
    t.hay.ring.map (fun e => (e.seq, e.arg, e.cont)) = [(0, 5, false), (1, 6, true)] ∧ t.hay.batch.length = 2 ∧ t.hay.unread = 2 ∧
    (after .event { s with node := { s.node with logSev := 2 } }).hay.batch = [] ∧
    (after .event (hayN { Hayward.init with fifo := [ev1], logged := [(0x1001, 62)] })).hay.batch.length = 2 ∧
    (after .event (hayN { Hayward.init with fifo := [ev1], logged := [(0x1001, 63)] })).hay.supp = [(0x1001, 2)] ∧
    after .event (hayN Hayward.init) = hayN Hayward.init ∧ after .event up = up := by decide +kernel
theorem test_log_pages :
    let s := hayN { Hayward.init with batch := List.replicate 9 ev0 }
    let p := after .logBatch s
    p.hay.page.length = 8 ∧ p.hay.batch.length = 1 ∧ after .logBatch p = p ∧ (after .flashDone p).hay.storeB.log.length = 8 ∧
    (after (.flashFail .b) p).hay.storeA.log.length = 8 ∧ (after (.flashFail .b) p).hay.storeB.log = [] ∧
    codes (after (.flashFail .b) p) = [0x900D] := by decide +kernel
theorem test_suppressed :
    let s := hayN { Hayward.init with supp := [(0x1001, 2), (0x1002, 3)] }
    (after .logSupp s).hay.ring.map (fun e => (e.code, e.arg.toNat % 2 ^ 32)) = [(0x9011, 5)] ∧ (after .logSupp s).hay.supp = [] := by decide +kernel
theorem test_poll_and_watchdog :
    let s := hayN { Hayward.init with ring := [ev0], storeA := { Store.init with log := [ev0] } }
    Tbl.get (0, 0) (after (.haywardPoll 8 4095 (-3)) s).hay.values (8 * 4096 + 4095) = (-3, 0) ∧
    (after .fwWdog s).hay.ring = [] ∧ (after .fwWdog s).hay.nextSeq = 6 ∧ (after .fwWdog s).hay.up = false ∧
    (after .haywardUp (after .fwWdog s)).hay.up = true ∧ codes (after .haywardUp (after .fwWdog s)) = [0x9010, 0x9006] := by decide +kernel

/-- A frequency run of ten-tick pulses on TIN0 for one gate, and its unit. -/
def setupF (src : Nat) (cont : Bool) : TallySetup := ⟨false, src, 0, 5120, 1, cont, false, 0, 0, 0, 0, 0, 0⟩
def unitT (x : TallySetup) : Tally := { Tally.init with setup := some x }
def tallyN (t : Tally) : State := up.setTally 3 t
def sumsT (n : Nat) (slips : Nat) : TallySums := { TallySums.zero with n := n, slips := slips, prevT := 100, prevN := 1 }
theorem test_tin :
    ((after (.tinEdge 0 false 9 0) (tallyN (unitT (setupF 1 false)))).tally 3).stamps = [9 * 512 + 511] ∧
    ((after (.tinEdge 0 false 9 0) (tallyN (unitT (setupF 1 false)))).tdc (hubTdc 1)).hist = [(0, 1)] ∧
    ((after (.tinEdge 0 true 9 0) (tallyN (unitT (setupF 1 false)))).tally 3).stamps = [] := by decide +kernel
theorem test_stamps : -- PNOM 5,120 units of 1/512 core cycle; codes 255, 256 and 511 read 257, 256 and 1 in the seed map
    let t := { unitT (setupF 0 false) with opened := true, openAt := 0 }
    let put := fun (st : Nat) (code : Fin 513) (z : TallySums) =>
      ((after (.tallyStamp 3 st code) (tallyN { t with sums := z })).tally 3).sums
    let z := { TallySums.zero with n := 1, prevT := 0 }
    nearest (1280 : Int) 5120 = 0 ∧ nearest (6400 : Int) 5120 = 1 ∧ (put 2 0 TallySums.zero).n = 1 ∧
    (put 12 256 z).prevN = 1 ∧ (put 12 255 z).slips = 1 ∧ (put 0 511 z).slips = 1 ∧
    ((after (.tallyStamp 3 1 0) (tallyN { t with openAt := 1024 })).tally 3).sums = TallySums.zero ∧
    after (.tallyStamp 3 9 0) (tallyN (unitT (setupF 1 false))) = tallyN (unitT (setupF 1 false)) := by decide +kernel
theorem test_gates :
    let t := unitT (setupF 1 false)
    let o := { t with opened := true, openAt := 7, sums := sumsT 3 0 }
    ((after (.tallyGateOpen 3 7) (tallyN t)).tally 3).openAt = 7 ∧ ((after (.tallyGateClose 3) (tallyN o)).tally 3).closed = true ∧
    ((after (.tallyGateOpen 3 7) (tallyN (unitT (setupF 4 false)))).tally 3).opened = false ∧
    ((after (.tallyGateOpen 3 7) { tallyN (unitT (setupF 4 false)) with clock := { up.clock with slice := 1 } }).tally 3).openAt = 4096 * 512 ∧
    (setupF 4 false).src = 4 ∧ after (.tallyGateClose 3) (tallyN { unitT (setupF 4 false) with opened := true }) =
      tallyN { unitT (setupF 4 false) with opened := true } := by decide +kernel
theorem test_tally_result :
    let res := fun (n slips : Nat) (cont : Bool) (x' : Option TallySetup) =>
      after (.tallyResult 3 0) (tallyN { unitT (setupF 1 cont) with
        opened := true, closed := true, openAt := 7, sums := sumsT n slips, nextSetup := x' })
    let stat := fun (s : State) => ((s.tally 3).result.map (fun r => r.toNat / 2 ^ 115 % 8))
    stat (res 2 0 false none) = some 1 ∧ stat (res 99 1 false none) = some 0 ∧ stat (res 98 1 false none) = some 2 ∧
    ((res 2 0 false none).tally 3).setup = none ∧ ((res 2 0 true none).tally 3).openAt = 7 + 1200000 * 512 ∧
    ((res 2 0 true (some (setupF 2 false))).tally 3).setup = some (setupF 2 false) ∧ (res 2 0 false none).core.service.length = 1 := by
  decide +kernel
theorem test_difference :
    let x : TallySetup := ⟨true, 0, 5, 0, 0, false, false, 0, 0, 0, 10, 2, 3⟩
    let s : State := { tallyN { unitT x with pulses := [0, 4000] } with ring := { up.ring with newest := some 0 } }
    (s.tally 3).pulses.length = x.k ∧ ((s.tally 3).pulses.getLastD 0 + x.win) / 4096 ≤ 0 ∧
    after (.differenceResult 3) (tallyN { unitT x with pulses := [0] }) = tallyN { unitT x with pulses := [0] } := by decide +kernel

/-! ### The machine as a whole -/

theorem test_front : step { up with pending := [.nopCommand .script, .stepBoundary 0] } =
    exec (.nopCommand .script) { up with pending := [.stepBoundary 0] } := rfl
theorem test_idle : step up = .next up := rfl
theorem test_queue : -- first in, first out, and an effect leaves the queue alone
    (match step { up with pending := [.stepBoundary 0, .sliceBoundary] } with
      | .next t => t.pending == [.sliceBoundary] && t.clock.step == 1
      | _ => false) = true := by decide +kernel
theorem test_memory_reset : State.reset.MemoryWf := ⟨rfl, rfl, fun _ => rfl⟩
theorem test_tripped :
    trippedN.node.tripped = true ∧ worksUnpowered .sliceBoundary = false ∧ after .sliceBoundary trippedN = trippedN ∧
    worksUnpowered .tripRestart = true ∧ worksUnpowered (.evaluation [] 0 0) = true := by decide +kernel
theorem test_no_word_spells_a_command : decodeTableWord 32 0 = none ∧ up.withFetchWord 32 0 = up := by decide +kernel

/-! ### Examples of the manual -/

theorem test_crc_check_value : crc32c [0x31, 0x32, 0x33, 0x34, 0x35, 0x36, 0x37, 0x38, 0x39] = 0xE3069283 := by decide +kernel
theorem test_reference_marks : -- the example of offset and delay (13, The exchange): t1 and t2, each one unit wide
    (refEgress 2 0 (49672 * 65536 / 10) = 327679999 ∨ refEgress 2 0 (49672 * 65536 / 10) = 327680000) ∧
    (refIngress 2 0 (6730890 * 65536 / 1000) 40 500 = 435585024 ∨ refIngress 2 0 (6730890 * 65536 / 1000) 40 500 = 435585023) := by
  constructor
  · rcases openDiv_cases 0 ((egressPs 2 + 0) * 65536) 1000 with h | h <;> simp only [refEgress, h] <;> decide
  · rcases openDiv_cases 0 (((ingressPs 2 + 500 + 0) * 75 + ((76 - 40) * 88000 * 2 ^ (2 - 2) : Nat)) * 65536) 75000 with h | h <;>
      simp only [refIngress, h] <;> decide


/-! ### States that meet the further clauses -/

theorem test_record_words : -- word 0, word 2 received badly; LCHAN 75 of region 5
    ((after (.rnext 0 1) (running holdX [rnextW])).gleaner 0).wp 1 = true ∧
    (((after (.rnext 0 1) (running holdX [rnextW])).gleaner 0).w 1).toNat / 2 ^ 112 = 0xE * 4096 + 5 * 512 + 75 ∧
    (((after (.rnext 0 4) (running holdX [rnextW])).gleaner 0).w 1).toNat / 2 ^ 112 = 0xEFFF := by decide +kernel
theorem test_range_switch_late : -- the stop was taken, the peak is captured 20 ticks later
    let c : Cell := { cellG 2 .reset with capAt := 5 * 4096 + 120, slot0 := some held0, age := 1 }
    (c.switchAt = none ∧ held0.age + 1 = c.age) ∧ ((after (.rangeSwitch 0 100) (cellN c)).cell 0).phase = .switched ∧
    ((after (.rangeSwitch 0 100) (cellN c)).cell 0).slot0 = none ∧ after (.rangeSwitch 0 120) (cellN c) = cellN c := by decide +kernel
theorem test_limit_without_discriminator :
    let c : Cell := { hitC with phase := .switched, disc := false }
    (((after (.hitLengthLimit 0 256 5) (cellN c)).cell 0).slot 0).map (·.flags) = some 0x03 := by decide +kernel
theorem test_rebuild_unit :
    let m : ChanTdc := { ChanTdc.init with rebuild := some [(3, 65536)] }
    let s := tdcN { m with guard := 3 }
    s.rebuilding 0 = some 0 ∧ (((after (.rebuildDone 0) s).tdc 0).outside.map (·.seed)) = some false ∧
    ((after (.rebuildDone 0) (tdcN m)).tdc 0).waiting.isSome = true ∧ after (.rebuildDone 1) s = s := by decide +kernel
theorem test_dither_cases : -- a second entry in 8,192 ticks; a cell that is not idle; an exclusion
    let s := fun (c : Cell) (m : ChanTdc) => (cellN c).setTdc 0 m
    let m : ChanTdc := { ChanTdc.init with offered := some (5 * 4096) }
    let busy : Cell := { cellG 0 .armed with disc := true }
    let excl := (s (cellG 0 .armed) ChanTdc.init).setFe 0 { Fe.init with exclTo := 10 ^ 9 }
    (s (cellG 0 .armed) m).dithered 0 = true ∧ after (.ditherEntry 0 8 300) (s (cellG 0 .armed) m) = s (cellG 0 .armed) m ∧
    after (.ditherEntry 0 8 300) (s busy ChanTdc.init) = (s busy ChanTdc.init).setTdc 0 { ChanTdc.init with offered := some (5 * 4096 + 8) } ∧
    (excl.fe 0).excluded (5 * 4096 + 8) = true ∧ ((after (.ditherEntry 0 8 300) excl).tdc 0).hist = [] ∧
    ((after (.ditherEntry 0 8 300) excl).cell 0).dither = some (5 * 4096 + 12) := by decide +kernel
theorem test_strobe_asleep :
    let s := laneN .a [.strobe]
    codes (after (.controlLaneReceive 0 .a) { s with node := { s.node with pstate := .fallow } }) = [0x1003] ∧
    codes (after (.injectionStep 0 0) { feN { Fe.init with injDue := [20000] } with node := { up.node with pstate := .hush } }) = [0x1003] := by
  decide +kernel
theorem test_failure_prunes : -- the other link failed too; the other link live, with one record acknowledged
    let s := fun (a : RLink) => (up.setFe 0 { Fe.init with dr := [rec0, rec1], linkA := a }).setLane 0 .b [.failure]
    ((after (.controlLaneReceive 0 .b) (s { RLink.init with failed := true })).fe 0).dr = [] ∧
    ((after (.controlLaneReceive 0 .b) (s { RLink.init with acked := 1 })).fe 0).drBase = 1 := by decide +kernel
theorem test_guard_taken_back : -- the guard of the mask before still runs
    let f : Fe := { Fe.init with mask := true, maskEnd := [30000], region := Trip.all (1 <<< 42) }
    0 < guardOf f.region.vote.toNat ∧ ((after (.blankRise 5 0) (feN f)).fe 0).maskEnd = [] := by decide +kernel
theorem test_conversion_order : -- an earlier conversion of the block; the low-power rate; the offline slice taken
    let c := fun (low paired : Bool) (at_ : Nat) => some (⟨0, 2, convH, at_, low, 0, true, paired⟩ : Conv)
    let b : Block := { Block.init with slices := [(3, { AdcSlice.init with conv := c false false 20480 }), (4, { AdcSlice.init with conv := c true true 20480 })] }
    let n := blkN b
    after (.conversionComplete 0 4 1023 0 0) n = n ∧ after (.conversionComplete 0 4 1024 0 0) n = n ∧
    ((after (.conversionComplete 0 4 1024 0 0) (after (.conversionComplete 0 3 300 0 0) n)).block 0).fifo.length = 2 ∧
    b.offlineFree 20480 = false ∧ (Block.init).offlineFree 20480 = true ∧
    ((after (.referencePair 0 0 17) (blkN Block.init)).block 0).refPair = some (0, 20736) := by decide +kernel
theorem test_marker_waits :
    let s := fun (l : List FeRec) (m : List FeRec) (b : Block) => (blkN b).setFe 0 { Fe.init with lossQ := l, markQ := m, nextMarker := 4 }
    ((after (.derandomiserWrite 0) (s [] [rec0] { Block.init with fifo := [rec1] })).fe 0).dr = [rec1, rec0] ∧
    ((after (.derandomiserWrite 0) (s [] [rec0] Block.init)).fe 0).dr = [rec0] ∧
    ((after (.sliceMarkerDue 0) (s [{ rec0 with slice := 5 }] [] Block.init)).fe 0).markQ.length = 1 ∧
    after (.sliceMarkerDue 0) (s [] [rec0] Block.init) = s [] [rec0] Block.init := by decide +kernel
theorem test_link_holds : -- the die has heard of a retraining; the hub retrains; the DRHI bit of a trailer
    let x := { frame0 0 with drhi := true }
    after (.frameSend 0 .a) (linkN { RLink.init with heard := true } []) = linkN { RLink.init with heard := true } [] ∧
    after (.frameReceive 0 .a 0 []) (linkN { wireL with retrain := true } []) = linkN { wireL with retrain := true, wire := [] } [] ∧
    ((after (.frameReceive 0 .a 0 []) (linkN { RLink.init with wire := [x] } [])).fe 0).linkA.hubDrhi = true ∧
    ((after (.frameReceive 0 .a 0 []) (linkN { wireL with waitRetry := some 3 } [])).fe 0).linkA.waitRetry = some 3 := by decide +kernel
theorem test_script_reads : -- a TABLE step of a script reads its buffer; a read that times out ends it
    let step := cw 2 0 0x83 0x1000
    let s := scriptN 0 [BitVec.ofNat 128 step]
    let s : State := { s with node := { s.node with prog := some { emptyProg with sizes := [(0x83, 64)], attrs := [(0x83, 3)] } } }
    let t := s.complete .script .ok
    readsHost step = true ∧ t.pcie.outQ.map (·.2) = [.readReq 0x1000 0] ∧ t.reading .script = true ∧
    (((after (.completionTlp .script 64 .success false false) t).node.script.bind (·.cmd)).map (·.bytes)) = some 64 ∧
    ((after (.completionTimeout .script) t).cring 0).cmd = none ∧ (after (.completionTimeout .script) t).node.mode = .safe := by decide +kernel
theorem test_writing_runs : -- a writing run that waits on unit 1
    let x : TallySetup := ⟨true, 0, 0, 0, 0, false, false, 0, 0, 0, 0, 1, 0⟩
    let s := (cmdN .triggered (cw 5 4 0 0)).setTally 1 { Tally.init with nextSetup := some x }
    (s.tally 1).willWrite = true ∧ arg0 (cw 5 4 0 0) / 2 ^ 13 % 4 ≤ 1 ∧ status (after (.tallyDifference (.ring 0)) s) = some 0x14 := by
  decide +kernel
theorem test_power_tick :
    let s := cmdN .triggered (cw 4 0 0 0)
    let t := after (.powerActive (.ring 0) 77) { s with node := { s.node with pstate := .rest } }
    (t.fe 7).activeFrom = 77 := by decide +kernel
theorem test_mask_kept :
    (after (.conditionEnableMask (.ring 0)) (cmdN .triggered (cw 6 2 0x5 0))).trig.oldMasks = [(0, up.trig.mask)] := by decide +kernel
theorem test_raw_units : -- RAW unit: five bits wait and ten come, and a slip drops the oldest; too few bits make no unit
    let m := putBytes decodeTab 0 (leBytes 8 (1 + 1 * 2 ^ 8 + 1 * 2 ^ 16))
    let s := fun (bits : List Bool) (slip : Bool) =>
      { trigN .triggered { Tcmd.init with pair0 := lockedP, bits := bits, slip := slip } with tables := Tbl.set [] [] idDecode m }
    let five := [true, false, true, false, true]
    (s [] false).decRaw = true ∧ (after (.tcmdUnit 0x0F 0) (s five false)).trig.tcmd.bits = [false, true, true, true, true] ∧
    (after (.tcmdUnit 0x0F 0) (s five true)).trig.tcmd.bits = [true, true, true, true] ∧
    (after (.tcmdUnit 0x0F 0) (s [] true)).trig.tcmd.bits.length = 9 := by decide +kernel
theorem test_trigger_epoch : -- node epoch 2: the time names epoch 0xFFFFFFFF, which is the last one before epoch 2^32
    let s : State := { softN with clock := { softN.clock with epoch := 2, era := 1 } }
    let s := s.setCring 0 (ringW (cw 6 0 0 (1000 * 2 ^ 8 + 0xFFFFFFFF * 2 ^ 32)))
    (after (.softwareTrigger (.ring 0)) s).trig.queue.map (·.ws) = [(2 ^ 32 - 1) * 2 ^ 24 + 1000] := by decide +kernel
theorem test_always_on : -- in TRIPPED: the loss of REFCLK, and the alarm
    (after (.refLost 7) trippedN).node.refLost = true ∧ trippedN.node.pwrgd = true ∧
    (after (.evaluation (List.replicate 40 400) 0 0) trippedN).thermal.alarmA = true := by decide +kernel
theorem test_both_windows :
    let s : State := { winN .standby { Window.init with target := 1, data := 7 } with windowB := { Window.init with target := 1, data := 9 } }
    let t := after (.go .a) s
    (t.window.word, t.windowB.word, t.windowB.count) = (7, 9, 1) ∧
    (let r := after (.rd .b 1) t
     (r.window.read.setWidth 32, r.windowB.read.setWidth 32) = ((7, 8) : BitVec 32 × BitVec 32)) := by decide +kernel
theorem test_locked_line :
    let s : State := { memN with ring := { memN.ring with merge := [lockedE] } }
    s.ring.isLocked 5 = true ∧ after (.lineFetch .a 5 [1, 1, 1]) s = s ∧
    after (.scrubRead .a .line 5 []) { s with ring := { s.ring with scrubA := { s.ring.scrubA with next := 5 } } } =
      { s with ring := { s.ring with scrubA := { s.ring.scrubA with next := 5 } } } := by decide +kernel
theorem test_merge_joins : -- byte 1 beside byte 0; the last byte of a line
    let put := fun (e : MergeEntry) (off : Nat) => (after (.mergeWrite 5 off [9]) { memN with ring := { memN.ring with merge := [e] } }).ring.merge
    (put ⟨5, 7, 1, false⟩ 1).map (fun e => (e.valid.toNat, e.data.toNat, e.locked)) = [(3, 9 * 256 + 7, false)] ∧
    (put ⟨5, 7, 2 ^ 127 - 1, false⟩ 127).map (·.locked) = [true] := by decide +kernel
theorem test_scrub_words : -- a working word and a free word of hub SRAM, in hush too
    let s : State := { memN with node := { memN.node with pstate := .hush }, gmem := { up.gmem with tags := [(9, true)] } }
    Tbl.get false (after (.scrubRead .a .sramWorking 8 [1]) s).gmem.tags 8 = true ∧
    Tbl.get false (after (.scrubRead .a .sramFree 9 [1]) s).gmem.tags 9 = false ∧
    codes (after (.scrubRead .a .sramFree 9 [1]) s) = [0x4004] ∧ after (.scrubRead .a .sramFree 9 []) s = s := by decide +kernel
theorem test_held_words : -- bits 0 and 1 of word 0 flip unseen; one flipped bit is seen, and after three replays poisons the record
    let s := fun (n : Nat) (w : Fin 3) =>
      { blkN { Block.init with fifo := [rec1, rec0] } with gmem := { up.gmem with replays := Tbl.set 0 [] (stageCode (.blockFifo 0 w)) n } }
    let head := fun (t : State) => (t.block 0).fifo.head?.map (fun r => (r.bits, r.poison))
    head (after (.parityReplay (.blockFifo 0 0) 3) (s 0 0)) = some (rec1.bits ^^^ 3, none) ∧
    head (after (.parityReplay (.blockFifo 0 0) 1) (s 2 0)) = some (rec1.bits, none) ∧
    head (after (.parityReplay (.blockFifo 0 0) 1) (s 3 0)) = some (rec1.bits, some true) ∧
    head (after (.parityReplay (.blockFifo 0 2) 1) (s 3 2)) = some (rec1.bits, some false) := by decide +kernel
theorem test_vectors : -- vector 3 is pending and masked; its control word is written with 0
    let s := (hostN .triggered).setEp .a { epOn with msix := true, pba := 8 }
    let t := after (.registerWrite .a 0x1003C 0 false true) s
    s.barServed .a = true ∧ s.pcie.outQ = [] ∧ (t.ep .a).pba = 0 ∧ outs t = [.msix .a 3] ∧
    Tbl.get vectorAtReset (t.ep .a).vectors 3 = 0 ∧ Tbl.get vectorAtReset (t.ep .a).vectors 4 = vectorAtReset := by decide +kernel
theorem test_endpoint_off :
    let s := (hostN .triggered).setEp .b { epOn with off := true, linkUp := false }
    after (.pcieLinkUp .b 4 4) s = s := by decide +kernel
theorem test_training_answers : -- PRE at its largest is refused; a copy in LINK answers with a word of lane 2 and the role 1
    let t := fun (req : Nat) (l : Lane) => after (.trainingWord .a 6 (wordOf 2 7 0 req 0) false) (eqN l)
    let rsp := fun (t : State) => ((t.port 1).copyA.lane 2).rsp
    rsp (t 1 (laneX 3 4)) = 1 ∧ rsp (t 1 (laneX 15 4)) = 2 ∧ rsp (t 4 (laneX 3 0)) = 2 ∧ rsp (t 0 (laneX 3 4)) = 0 ∧
    (after (.trainingWord .a 6 (wordOf 2 7 0 1 0) false) (portN 1 (copyS .link))).pcie.out.map
      (fun o => match o with | .training _ n w => (n, w.toNat / 2 ^ 52, w.toNat / 2 ^ 47 % 4, w.toNat / 2 ^ 45 % 4) | _ => (99, 0, 0, 0)) =
    [(6, 2, 2, 1)] := by decide +kernel
theorem test_up_logged :
    codes (after (.fodafortMarker .a 1 [3, 0, 2, 1] [5, 5, 5, 5] 0) (portN 1 (copyS .align))) = [0x5001, 0x900F, 0x900F, 0x900F, 0x900F] := by
  decide +kernel
theorem test_good_frame : -- an empty PRIM frame with FSEQ 5, its start block written out: type 2, NDATA 0
    (portFrame 2 false 5 []).start.toNat = 0b0010_00000000000_0_0000000000000101_000000000000000000000000 ∧ frameGood (portFrame 2 false 5 []) 2 = true ∧
    frameGood (portFrame 2 false 5 [0]) 2 = false := by decide +kernel
theorem test_loop_asks : -- an ADC loop asks for trigger 8 + 1 as its period begins; no hub drives
    let l : LoopSt := { loopL with w0 := BitVec.ofNat 64 (2 ^ 63 + 2 ^ 61 + 10 * 2 ^ 10) }
    (l.fbsrc, l.runs, l.willCount true) = (1, true, true) ∧
    (after (.loopPeriod 1 640 3 8 false) (loopS { l with sample := some (80, false) })).mon.arriving = [9] ∧
    (let s : State := { loopS loopL with red := { up.red with drive := none } }
     after (.loopPeriod 1 640 3 8 false) s = s ∧ after (.lcsCrossing 1 89) s = s ∧
     (let g : State := { s.setLoop 1 { loopL with w3 := 2 ^ 7, due := 2 } with counters := [] }
      ((after (.gateWindowOpen 1) g).loop 1).due = 1 ∧ ((after (.gateWindowOpen 1) g).loop 1).out = false)) := by decide +kernel
theorem test_loop_starting_lost :
    let p := fun (l : LoopSt) => loopAt (.loopPeriod 1 640 3 8 true) l
    (p { loopL with starting := true }).lostRow = 1 ∧ (p { loopL with starting := true }).last = 80 ∧
    (p { loopL with starting := true, lostRow := 1 }).fault = some .fbloss := by decide +kernel
theorem test_replay_held : -- the hub that takes over repeats what the host has not acknowledged
    let o : Nat × Out := (5, .write 0x1000 [1])
    let s : State := { redN { Red.init with active := .b, drive := none, switchAt := some 7, held := true } with
      pcie := { up.pcie with replay := [o] } }
    (after .replayRelease s).pcie.out = s.replayed ∧ (after .replayRelease s).red.drive = none := by decide +kernel
theorem test_queued_stamps : -- a stamp that waited and lies in the gate is taken at the result; a REFCLK unit is not the first
    let x := setupF 1 false
    let t := after (.tallyResult 3 0) (tallyN { unitT x with opened := true, closed := true, openAt := 7, sums := sumsT 2 0, stamps := [7 + 100 + 5120, 6] })
    (t.tally 3).result.map (fun r => (r.toNat / 2 ^ 83) % 2 ^ 32) = some 3 ∧
    (let two := (tallyN { unitT (setupF 0 false) with opened := true }).setTally 1 (unitT (setupF 0 false))
     (after (.tallyStamp 3 9 0) two).tdcs = two.tdcs ∧ ((after (.tallyStamp 3 9 0) two).tally 3).sums.n = 1) := by decide +kernel
theorem test_beyond_the_gate :
    let t := { unitT (setupF 0 true) with opened := true }
    ((after (.tallyStamp 3 1200000 0) (tallyN t)).tally 3).stamps = [1200000 * 512 + 511] := by decide +kernel

/-! ### Terms that are no commands -/

theorem test_sizes :
    (Instr.evaluation (List.replicate 40 0) 0 0).wf = true ∧ (Instr.evaluation (List.replicate 39 0) 0 0).wf = false ∧
    (Instr.setwriteMonitor .script (List.replicate 591 0)).wf = false ∧ (Instr.setwriteLoop .script (List.replicate 321 0)).wf = false ∧
    (Instr.setwriteTimeService .script (List.replicate 23 0)).wf = false ∧
    (Instr.setwriteLoopaLoopb .script (List.replicate 15 0)).wf = false ∧ (Instr.setwriteNodeWord .script []).wf = false ∧
    (Instr.stage (.ring 0) [0] 0).wf = false ∧ (Instr.stage (.ring 0) [] 0).wf = true ∧ (Instr.settingSweep 0 [(513, 0, 0)]).wf = false ∧
    (Instr.settingSweep 0 [(512, 0, 0)]).wf = true ∧ (Instr.frameReceive 0 .a 0 [(42, 0)]).wf = false ∧
    (Instr.otp (.ring 0) (List.replicate 255 0) none).wf = false ∧ (Instr.syncInterval [⟨0, 0⟩, ⟨0, 0⟩, ⟨0, 0⟩]).wf = false := by decide +kernel
theorem test_lines :
    (Instr.lineWriteDone 67108863 []).wf = true ∧ (Instr.lineWriteDone 67108864 []).wf = false ∧
    (Instr.lineWriteDone 0 [0, 0, 0, 0]).wf = false ∧ (Instr.mergeEntryIdle 67108864).wf = false ∧
    (Instr.lineFetch .a 67108864 []).wf = false ∧ (Instr.lineFetch .a 0 [0, 0, 0, 0]).wf = false ∧
    (Instr.mergeWrite 67108864 0 [0]).wf = false ∧ (Instr.mergeWrite 0 0 []).wf = false ∧ (Instr.mergeWrite 0 128 [0]).wf = false ∧
    (Instr.scrubRead .a .line 67108864 []).wf = false ∧ (Instr.scrubRead .a .line 0 [0, 0, 0, 0]).wf = false := by decide +kernel
theorem test_ranges :
    (Instr.trip 0 3).wf = true ∧ (Instr.trip 0 8).wf = false ∧ (Instr.loopPeriod 0 0 3 2 false).wf = false ∧
    (Instr.pcieLinkUp .a 0 4).wf = false ∧ (Instr.pcieLinkUp .a 7 4).wf = false ∧ (Instr.pcieLinkUp .a 1 3).wf = false ∧
    (Instr.haywardPoll 0 0 0).wf = false ∧ (Instr.haywardPoll 9 0 0).wf = false ∧ (Instr.haywardPoll 1 4096 0).wf = false ∧
    (Instr.rejoin .b (some 0)).wf = false ∧ (Instr.rejoin .b (some 5)).wf = false ∧ (Instr.rejoin .b (some 4)).wf = true ∧
    (Instr.fodafortMarker .a 0 [0, 1, 2] [0, 0, 0, 0] 0).wf = false ∧ (Instr.fodafortMarker .a 0 [0, 1, 2, 3] [] 0).wf = false ∧
    (Instr.monitorPhaseEnd [(0, 32768)] [] false 0).wf = false ∧ (Instr.monitorPhaseEnd [(0, -32769)] [] false 0).wf = false := by
  decide +kernel

end Sys2Proof.Tests
end

section
/-!
SUPPORT. The merge buffer: what bytes merged into an entry leave there (R215).
-/

namespace Sys2Proof.Machine

/-! ### Bytes of a number -/

theorem setByte_eq (x i b : Nat) :
    x - bitsAt x (8 * i) 8 * 2 ^ (8 * i) + b * 2 ^ (8 * i) =
      (x / 2 ^ (8 * i) / 256 * 256 + b) * 2 ^ (8 * i) + x % 2 ^ (8 * i) := by
  have hx := Nat.div_add_mod x (2 ^ (8 * i))
  have hq := Nat.div_add_mod (x / 2 ^ (8 * i)) 256
  rw [bitsAt_eq, show 2 ^ 8 = 256 from rfl]
  generalize x / 2 ^ (8 * i) = q at *
  generalize 2 ^ (8 * i) = p at *
  have : p * q = q / 256 * 256 * p + q % 256 * p := by rw [← Nat.add_mul, Nat.mul_comm p]; congr 1; omega
  rw [Nat.add_mul]
  omega

/-- A byte put in place i is read there, and every other byte as before. -/
theorem byte_setByte (x i j b : Nat) (hb : b < 256) :
    (x - bitsAt x (8 * i) 8 * 2 ^ (8 * i) + b * 2 ^ (8 * i)) / 2 ^ (8 * j) % 256 =
      if j = i then b else x / 2 ^ (8 * j) % 256 := by
  rw [setByte_eq]
  have hp : 0 < 2 ^ (8 * i) := Nat.two_pow_pos _
  have hdiv (q : Nat) : (q * 2 ^ (8 * i) + x % 2 ^ (8 * i)) / 2 ^ (8 * i) = q := by
    rw [Nat.mul_comm, Nat.mul_add_div hp, Nat.div_eq_of_lt (Nat.mod_lt _ hp), Nat.add_zero]
  rcases Nat.lt_trichotomy j i with h | rfl | h
  · rw [if_neg (by omega)]
    have hlow (y : Nat) : y % 2 ^ (8 * i) / 2 ^ (8 * j) % 256 = y / 2 ^ (8 * j) % 256 := by
      rw [show 8 * i = 8 * j + (8 + 8 * (i - j - 1)) by omega, Nat.pow_add, Nat.mod_mul_right_div_self, Nat.pow_add,
        Nat.mod_mul_right_mod]
    rw [← hlow, ← hlow x, Nat.mul_comm, Nat.mul_add_mod, Nat.mod_mod]
  · rw [if_pos rfl, hdiv]; omega
  · rw [if_neg (by omega)]
    have hhigh (y : Nat) : y / 2 ^ (8 * j) = y / 2 ^ (8 * i) / 256 / 2 ^ (8 * (j - i - 1)) := by
      rw [Nat.div_div_eq_div_mul, Nat.div_div_eq_div_mul, show 8 * j = 8 * i + 8 + 8 * (j - i - 1) by omega, Nat.pow_add,
        Nat.pow_add, Nat.mul_assoc]
    rw [hhigh, hhigh x, hdiv]
    congr 2
    omega

/-- A byte within a line is the same after cutting to 1,024 bits. -/
theorem byte_ofNat_line (x j : Nat) (hj : j < 128) : (BitVec.ofNat 1024 x).toNat / 2 ^ (8 * j) % 256 = x / 2 ^ (8 * j) % 256 := by
  rw [BitVec.toNat_ofNat, show 1024 = 8 * j + (8 + 8 * (127 - j)) by omega, Nat.pow_add 2 (8 * j), Nat.mod_mul_right_div_self,
    Nat.pow_add, Nat.mod_mul_right_mod]

/-! ### The merge buffer (R215) -/

theorem MergeEntry.merge_nil (e : MergeEntry) (off : Nat) : e.merge off [] = e := rfl

/-- Merging starts with the first byte and goes on one place further. -/
theorem MergeEntry.merge_cons (e : MergeEntry) (off : Nat) (b : Byte) (bs : List Byte) (h : off < 128) :
    e.merge off (b :: bs) = MergeEntry.merge { e with
      data := BitVec.ofNat 1024 (e.data.toNat - bitsAt e.data.toNat (8 * off) 8 * 2 ^ (8 * off) + b.toNat * 2 ^ (8 * off))
      valid := e.valid ||| BitVec.ofNat 128 (2 ^ off) } (off + 1) bs := by
  simp only [MergeEntry.merge, List.zipIdx_cons', List.foldl_cons, List.foldl_map, Nat.add_zero, h, if_true, Prod.map_fst,
    Prod.map_snd, id, Nat.add_assoc, Nat.add_comm 1]

theorem MergeEntry.merge_line (bs : List Byte) (e : MergeEntry) (off : Nat) (h : off + bs.length ≤ 128) :
    (e.merge off bs).line = e.line := by
  induction bs generalizing e off with
  | nil => rfl
  | cons b bs ih =>
    rw [List.length_cons] at h
    rw [merge_cons _ _ _ _ (by omega), ih _ _ (by omega)]

/-- Merged bytes become valid, and no other. -/
theorem MergeEntry.merge_valid (bs : List Byte) (e : MergeEntry) (off i : Nat) (h : off + bs.length ≤ 128) (hi : i < 128) :
    (e.merge off bs).valid.getLsbD i = (e.valid.getLsbD i || decide (off ≤ i ∧ i < off + bs.length)) := by
  induction bs generalizing e off with
  | nil =>
    have hout : ¬(off ≤ i ∧ i < off + ([] : List Byte).length) := fun ⟨h1, h2⟩ => absurd h2 (Nat.not_lt.2 h1)
    rw [merge_nil, decide_eq_false hout, Bool.or_false]
  | cons b bs ih =>
    rw [List.length_cons] at *
    rw [merge_cons _ _ _ _ (by omega), ih _ _ (by omega), BitVec.getLsbD_or, BitVec.getLsbD_ofNat, Nat.testBit_two_pow,
      Bool.or_assoc]
    congr 1
    rw [Bool.eq_iff_iff]
    simp only [hi, decide_true, Bool.true_and, Bool.or_eq_true, decide_eq_true_eq]
    omega

/-- Merged bytes are read in their places, and every other byte as before. -/
theorem MergeEntry.merge_byte (bs : List Byte) (e : MergeEntry) (off i : Nat) (h : off + bs.length ≤ 128) (hi : i < 128) :
    (e.merge off bs).data.toNat / 2 ^ (8 * i) % 256 =
      if off ≤ i ∧ i < off + bs.length then (bs.getD (i - off) 0).toNat else e.data.toNat / 2 ^ (8 * i) % 256 := by
  induction bs generalizing e off with
  | nil =>
    have hout : ¬(off ≤ i ∧ i < off + ([] : List Byte).length) := fun ⟨h1, h2⟩ => absurd h2 (Nat.not_lt.2 h1)
    rw [if_neg hout, merge_nil]
  | cons b bs ih =>
    rw [List.length_cons] at *
    rw [merge_cons _ _ _ _ (by omega), ih _ _ (by omega), byte_ofNat_line _ _ hi, byte_setByte _ _ _ _ b.isLt]
    rcases Nat.lt_trichotomy i off with h1 | rfl | h1
    · rw [if_neg (by omega), if_neg (by omega), if_neg (by omega)]
    · rw [if_neg (by omega), if_pos rfl, if_pos (by omega), Nat.sub_self, List.getD_cons_zero]
    · rw [if_neg (show ¬i = off by omega), show i - off = i - (off + 1) + 1 by omega, List.getD_cons_succ]
      simp only [show (off + 1 ≤ i ∧ i < off + 1 + bs.length) ↔ (off ≤ i ∧ i < off + (bs.length + 1)) by omega]

theorem MergeEntry.full_iff (e : MergeEntry) : e.full = true ↔ ∀ i, i < 128 → e.valid.getLsbD i = true := by
  simp only [full, beq_iff_eq, BitVec.eq_of_getLsbD_eq_iff, BitVec.getLsbD_allOnes]
  exact forall₂_congr fun i hi => by rw [decide_eq_true hi]

end Sys2Proof.Machine
end

section
/-!
SUPPORT. Lines of memory: a line read after a write, and the parts of a line made with its check (R200 to R203).
-/

namespace Sys2Proof.Machine

/-! ### Lines of memory (R200 to R203) -/

/-- Everything that a line not listed depends on is the same: the sweep, the devices and the table store. -/
structure State.SameBase (s t : State) : Prop where
  swept : t.ring.swept = s.ring.swept
  density : t.ring.density = s.ring.density
  image0 : t.ring.image0 = s.ring.image0
  image1 : t.ring.image1 = s.ring.image1
  tables : t.tables = s.tables
  prog : t.node.prog = s.node.prog

theorem Ring.size_congr {r r' : Ring} (h : r'.density = r.density) : r'.size = r.size := by
  unfold Ring.size; rw [h]

theorem Ring.storeStart_congr {r r' : Ring} (h : r'.size = r.size) : r'.storeStart = r.storeStart := by
  unfold Ring.storeStart Ring.stagingStart Ring.testStart; rw [h]

theorem Ring.area_congr {r r' : Ring} (h : r'.size = r.size) (n : Nat) : r'.area n = r.area n := by
  unfold Ring.area Ring.storeStart Ring.stagingStart Ring.testStart; rw [h]

theorem State.SameBase.liveAt {s t : State} (h : s.SameBase t) (n : Nat) : t.liveAt n = s.liveAt n := by
  unfold State.liveAt State.liveCopies; rw [h.prog]

theorem State.SameBase.storeLine {s t : State} (h : s.SameBase t) (n : Nat) : t.storeLine n = s.storeLine n := by
  unfold State.storeLine State.table
  simp only [Ring.storeStart_congr (Ring.size_congr h.density), h.image0, h.image1, h.liveAt, h.tables]

theorem State.SameBase.baseLine {s t : State} (h : s.SameBase t) (n : Nat) : t.baseLine n = s.baseLine n := by
  unfold State.baseLine
  rw [h.swept, Ring.area_congr (Ring.size_congr h.density), h.storeLine]

theorem State.lineAt_eq_get (s : State) (n : Nat) : s.lineAt n = Tbl.get (s.baseLine n) s.ring.lines n := by
  unfold State.lineAt
  induction s.ring.lines with
  | nil => rfl
  | cons p l ih =>
    obtain ⟨k, v⟩ := p
    by_cases hk : k = n
    · simp only [List.find?_cons, hk, beq_self_eq_true, Tbl.get, if_true]
    · simp only [List.find?_cons, beq_eq_false_iff_ne.2 hk, Tbl.get, if_neg (Ne.symm hk)]
      exact ih

/-- Lines are the same when the listed ones are and what the others depend on is. -/
theorem State.SameBase.lineAt {s t : State} (h : s.SameBase t) (hl : t.ring.lines = s.ring.lines) (n : Nat) :
    t.lineAt n = s.lineAt n := by
  rw [State.lineAt_eq_get, State.lineAt_eq_get, h.baseLine, hl]

theorem State.sameBase_setLine (s : State) (n : Nat) (l : Line) : s.SameBase (s.setLine n l) := ⟨rfl, rfl, rfl, rfl, rfl, rfl⟩

/-- A line read after a write: the line written at its number, the old line at every other. -/
theorem State.lineAt_setLine (s : State) (n m : Nat) (l : Line) :
    (s.setLine n l).lineAt m = if m = n then l else s.lineAt m := by
  rw [State.lineAt_eq_get, (s.sameBase_setLine n l).baseLine, State.lineAt_eq_get]
  simp only [State.setLine]
  split
  · next hl =>
    rw [Tbl.get_del]
    by_cases hm : m = n
    · subst hm; rw [if_pos rfl, if_pos rfl, hl]
    · rw [if_neg hm, if_neg hm]
  · exact Tbl.get_put ..

/-! ### The parts of a line (R201 to R203) -/

theorem makeLine_toNat (p h m : Nat) :
    ∃ c, (makeLine p h m).toNat = p % 2 ^ 896 + h % 2 ^ 64 * 2 ^ 896 + m % 2 ^ 32 * 2 ^ 960 + c * 2 ^ 992 := by
  simp only [makeLine, BitVec.toNat_ofNat]
  generalize crc32c _ = c
  exact ⟨c % 2 ^ 32, by omega⟩

theorem linePayload_makeLine (p h m : Nat) : linePayload (makeLine p h m) = p % 2 ^ 896 := by
  obtain ⟨c, hc⟩ := makeLine_toNat p h m
  rw [linePayload, bitsAt_eq, hc]
  omega

theorem bitsAt_makeLine_head (p h m : Nat) : bitsAt (makeLine p h m).toNat 896 64 = h % 2 ^ 64 := by
  obtain ⟨c, hc⟩ := makeLine_toNat p h m
  rw [bitsAt_eq, hc]
  omega

theorem lineAtHome_makeLine (p h n w : Nat) (hw : w < 16) : lineAtHome n (makeLine p h (lineMark n w)) = true := by
  obtain ⟨c, hc⟩ := makeLine_toNat p h (lineMark n w)
  rw [lineAtHome, bitsAt_eq, hc, lineMark, beq_iff_eq]
  omega

theorem b2n_eq_toNat (b : Bool) : b2n b = b.toNat := by cases b <;> rfl

/-- The header word holds POISON at bit 12 and INIT at bit 11 (R202). -/
theorem LineHead.testBit_word (h : LineHead) :
    (h.word % 2 ^ 64).testBit 12 = h.poison ∧ (h.word % 2 ^ 64).testBit 11 = h.init := by
  have bit (b : Bool) : decide (b.toNat % 2 = 1) = b := by cases b <;> rfl
  have h1 := h.poison.toNat_le
  have h2 := h.init.toNat_le
  have h3 := h.last.toNat_le
  have h4 := h.kept.toNat_le
  rw [Nat.testBit_eq_decide_div_mod_eq, Nat.testBit_eq_decide_div_mod_eq, ← bit h.poison, ← bit h.init]
  simp only [LineHead.word, b2n_eq_toNat]
  constructor
  · congr 2; omega
  · congr 2; omega

theorem lineHead_makeLine_poison (p m : Nat) (h : LineHead) : (lineHead (makeLine p h.word m)).poison = h.poison := by
  rw [← h.testBit_word.1, ← bitAt_eq, ← bitsAt_makeLine_head p _ m]; rfl

theorem lineHead_makeLine_init (p m : Nat) (h : LineHead) : (lineHead (makeLine p h.word m)).init = h.init := by
  rw [← h.testBit_word.2, ← bitAt_eq, ← bitsAt_makeLine_head p _ m]; rfl

/-- A poison rewrite sets POISON (R211). -/
theorem lineHead_poisonLine (n : Nat) (e : LineHead) (f : Line) : (lineHead (poisonLine n e f)).poison = true := by
  simp only [poisonLine]
  split <;> exact lineHead_makeLine_poison ..

end Sys2Proof.Machine
end

section
/-!
SUPPORT. What a write through the merge buffer, a fetch with its three tries and a poison rewrite change (R210, R211, R215, R216).
-/

namespace Sys2Proof.Machine

/-! ### Writes through the merge buffer (R215, R216) -/

/-- Nothing changed but the ring, and of the counters at most that of the writes that waited. -/
structure State.RingOnly (s t : State) : Prop where
  frame : t = { s with ring := t.ring, counters := t.counters }
  count : ∀ f, f.key ≠ (figMemBoth 8 2).key → t.count f = s.count f

theorem State.RingOnly.trans {s t u : State} (h : s.RingOnly t) (k : t.RingOnly u) : s.RingOnly u :=
  ⟨k.frame.trans (congrArg (fun x : State => { x with ring := u.ring, counters := u.counters }) h.frame),
    fun f hf => (k.count f hf).trans (h.count f hf)⟩

theorem State.RingOnly.hay {s t : State} (h : s.RingOnly t) : t.hay = s.hay := (congrArg State.hay h.frame).trans rfl
theorem State.RingOnly.trig {s t : State} (h : s.RingOnly t) : t.trig = s.trig := (congrArg State.trig h.frame).trans rfl
theorem State.RingOnly.red {s t : State} (h : s.RingOnly t) : t.red = s.red := (congrArg State.red h.frame).trans rfl

theorem State.ringOnly_ring (s : State) (r : Ring) : s.RingOnly { s with ring := r } := ⟨rfl, fun _ _ => rfl⟩

theorem State.ringOnly_bump {s t : State} (h : s.RingOnly t) : s.RingOnly (t.bump (figMemBoth 8 2)) :=
  h.trans ⟨rfl, fun f hf => by rw [State.count_bump, if_neg hf]⟩

theorem State.ringOnly_mergeWrite (s : State) (n off : Nat) (bs : List Byte) : s.RingOnly (s.mergeWrite n off bs) := by
  unfold State.mergeWrite
  dsimp only
  split
  · exact State.ringOnly_bump (s.ringOnly_ring _)
  · exact s.ringOnly_ring _

theorem State.ringOnly_writeFull (s : State) (n : Nat) (l : Line) : s.RingOnly (s.writeFull n l) := by
  unfold State.writeFull
  split
  · exact s.ringOnly_mergeWrite ..
  · exact s.ringOnly_ring _

theorem State.ringOnly_markPoison (s : State) (q : Nat) : s.RingOnly (s.markPoison q) := by
  unfold State.markPoison
  split
  · dsimp only
    split
    · exact s.ringOnly_ring _
    · exact s.ringOnly_mergeWrite ..
  · exact s.ringOnly_ring _

/-- An eviction only locks an entry. -/
theorem Ring.evict_eq (r : Ring) : r.evict = { r with merge := r.evict.merge } := by
  unfold Ring.evict
  split <;> rfl

/-- A write through the merge buffer leaves the lines themselves as they are until the entry is written. -/
theorem State.mergeWrite_ring (s : State) (n off : Nat) (bs : List Byte) :
    (s.mergeWrite n off bs).ring =
      { s.ring with merge := (s.mergeWrite n off bs).ring.merge, mergeQ := (s.mergeWrite n off bs).ring.mergeQ } := by
  unfold State.mergeWrite
  dsimp only
  split
  · split
    · simp only [State.bump_ring, Ring.waitIn]
      rw [Ring.evict_eq]
    · rfl
  · rfl

theorem State.lineAt_mergeWrite (s : State) (n off m : Nat) (bs : List Byte) :
    (s.mergeWrite n off bs).lineAt m = s.lineAt m := by
  have hf := (s.ringOnly_mergeWrite n off bs).frame
  have hr := s.mergeWrite_ring n off bs
  exact State.SameBase.lineAt ⟨by rw [hr], by rw [hr], by rw [hr], by rw [hr], by rw [hf], by rw [hf]⟩ (by rw [hr]) m

/-- The flag POISON of a directory entry is set in the writer or through the merge buffer. -/
theorem State.lineAt_markPoison (s : State) (q m : Nat) : (s.markPoison q).lineAt m = s.lineAt m := by
  unfold State.markPoison
  split
  · dsimp only
    split
    · exact State.SameBase.lineAt ⟨rfl, rfl, rfl, rfl, rfl, rfl⟩ rfl m
    · exact s.lineAt_mergeWrite ..
  · rfl

/-! ### Three tries of a fetch (R210) -/

theorem goodTry_first {n : Nat} {l : Line} {errs : List Line} (h : lineGood n (l ^^^ errs.getD 0 0) = true) :
    goodTry n l errs = some 0 := by simp only [goodTry, List.find?_cons, h]

theorem goodTry_second {n : Nat} {l : Line} {errs : List Line} (h0 : lineGood n (l ^^^ errs.getD 0 0) = false)
    (h1 : lineGood n (l ^^^ errs.getD 1 0) = true) : goodTry n l errs = some 1 := by
  simp only [goodTry, List.find?_cons, h0, h1]

theorem goodTry_none {n : Nat} {l : Line} {errs : List Line} (h : ∀ i, i < 3 → lineGood n (l ^^^ errs.getD i 0) = false) :
    goodTry n l errs = none := by
  simp only [goodTry, List.find?_cons, h 0 (by decide), h 1 (by decide), h 2 (by decide), List.find?_nil]

/-- A line that is good at the first try is taken as it is. -/
theorem State.checkedFetch_good {s : State} {h : Hub} {n : Nat} {errs : List Line}
    (hg : lineGood n (s.lineAt n ^^^ errs.getD 0 0) = true) : s.checkedFetch h n errs = s := by
  simp only [State.checkedFetch, goodTry_first hg]

theorem Ring.area_ring {r : Ring} {n : Nat} (h : n < r.size) : r.area n = .ring := if_pos h

/-- A ring line that is good at the second try is counted. -/
theorem State.checkedFetch_second {s : State} {h : Hub} {n : Nat} {errs : List Line} (hn : n < s.ring.size)
    (h0 : lineGood n (s.lineAt n ^^^ errs.getD 0 0) = false) (h1 : lineGood n (s.lineAt n ^^^ errs.getD 1 0) = true) :
    s.checkedFetch h n errs = s.bump (figMem h 2 0) := by
  simp only [State.checkedFetch, goodTry_second h0 h1, Ring.area_ring hn]; rfl

/-- A ring line that is bad three times is poisoned. -/
theorem State.checkedFetch_bad {s : State} {h : Hub} {n : Nat} {errs : List Line} (hn : n < s.ring.size)
    (hb : ∀ i, i < 3 → lineGood n (s.lineAt n ^^^ errs.getD i 0) = false) :
    s.checkedFetch h n errs = s.poisonRewrite h n (s.lineAt n ^^^ errs.getD 2 0) := by
  simp only [State.checkedFetch, goodTry_none hb, Ring.area_ring hn]

/-! ### The poison rewrite of a ring line (R211) -/

theorem State.count_localErr (s : State) (h : Hub) (e : LocalErr) (f : Fig)
    (hf : f.key ≠ (⟨0x09, 3, 2, h.idx + 1, errCode e⟩ : Fig).key) : (s.localErr h e).count f = s.count f := by
  rw [State.localErr, State.count_bump, if_neg hf]
  cases h <;> rfl

/-- What a poison rewrite reports, whatever becomes of the line. -/
def State.poisonReport (s : State) (h : Hub) (n : Nat) : State :=
  ((s.bump (figMem h 3 0)).localErr h .mempoison).post .mempoison (areaItems .ring n) (some h)

theorem State.poisonReport_ring (s : State) (h : Hub) (n : Nat) : (s.poisonReport h n).ring = s.ring := by
  rw [State.poisonReport, State.post_ring, State.localErr_ring, State.bump_ring]

theorem State.poisonReport_trig (s : State) (h : Hub) (n : Nat) : (s.poisonReport h n).trig = s.trig := by
  rw [State.poisonReport, State.post_trig, State.localErr_trig, State.bump_trig]

/-- The poison rewrite of a ring line: its report, then in the active hub the line, then the flag in the directory entry of the slice
that holds it. -/
theorem State.poisonRewrite_ring (s : State) (h : Hub) (n : Nat) (last : Line) (hn : n < s.ring.size) :
    let u := s.poisonReport h n
    let v := u.writeFull n (poisonLine n (u.expectHead n) last)
    s.poisonRewrite h n last = if h = s.red.active then
      (match u.expecting n with
       | some (q, _, _) => v.markPoison q
       | none => v) else u := by
  have hact : (s.poisonReport h n).red.active = s.red.active := by cases h <;> rfl
  have hrep : ((s.bump (figMem h 3 (Area.ring.code - 1))).localErr h .mempoison).post .mempoison (areaItems .ring n) (some h) =
    s.poisonReport h n := rfl
  simp only [State.poisonRewrite, Ring.area_ring hn, reduceCtorEq, false_and, if_false, hrep, hact]
  rcases (s.poisonReport h n).expecting n with _ | x <;> rfl

theorem State.ringOnly_poisonRewrite (s : State) (h : Hub) (n : Nat) (last : Line) (hn : n < s.ring.size) :
    (s.poisonReport h n).RingOnly (s.poisonRewrite h n last) := by
  rw [State.poisonRewrite_ring s h n last hn]
  split
  · split
    · exact (State.ringOnly_writeFull ..).trans (State.ringOnly_markPoison ..)
    · exact State.ringOnly_writeFull ..
  · exact State.ringOnly_ring _ _

theorem State.lineAt_poisonReport (s : State) (h : Hub) (n m : Nat) : (s.poisonReport h n).lineAt m = s.lineAt m := by
  have hr := s.poisonReport_ring h n
  have ht : (s.poisonReport h n).tables = s.tables := by
    rw [State.poisonReport, State.post_tables, State.localErr_tables, State.bump_tables]
  have hp : (s.poisonReport h n).node.prog = s.node.prog :=
    (congrArg NodeCtl.prog ((s.bump (figMem h 3 0)).localErr_node h .mempoison)).trans rfl
  exact State.SameBase.lineAt ⟨by rw [hr], by rw [hr], by rw [hr], by rw [hr], ht, hp⟩ (by rw [hr]) m

end Sys2Proof.Machine
end

section
/-!
SUPPORT. The reads of memory and the split-write window, and the statement on them (R31, R210, R211, R224, R225).
-/

namespace Sys2Proof.Machine

/-! ### The clauses of memory reads (R31, R210, R211, R224) -/

theorem Counted.of_count_eq {s t u : State} {f : Fig} {n : Nat} (h : Counted s t f n) (hu : u.count f = t.count f) :
    Counted s u f n := hu.trans h

theorem State.poisonReport_raised (s : State) (h : Hub) (n : Nat) : Raised s (s.poisonReport h n) 0x4001 :=
  ⟨_, congrArg (· ++ _) (congrArg Hayward.fifo ((s.bump (figMem h 3 0)).localErr_hay h .mempoison)), rfl⟩

theorem State.poisonReport_counted (s : State) (h : Hub) (n : Nat) : Counted s (s.poisonReport h n) (figMem h 3 0) 1 :=
  (s.bump_counted (figMem h 3 0) 1).of_count_eq
    ((s.bump (figMem h 3 0)).count_localErr h .mempoison (figMem h 3 0) (by cases h <;> decide))

theorem State.poisonReport_errs (s : State) (h : Hub) (n : Nat) :
    (.mempoison, s.clock.step) ∈ ((s.poisonReport h n).hubRed h).errs := by
  have he : ((s.poisonReport h n).hubRed h).errs = (((s.bump (figMem h 3 0)).localErr h .mempoison).hubRed h).errs := by
    cases h <;> rfl
  rw [he, State.localErr_errs, if_pos rfl]
  exact List.mem_append_right _ (List.mem_singleton.2 rfl)

/-- After the poison rewrite of a ring line without an entry in the merge buffer, the active hub holds the line with POISON, and every
other line as before. -/
theorem State.lineAt_poisonRewrite (s : State) (h : Hub) (n k : Nat) (last : Line) (hn : n < s.ring.size)
    (hact : h = s.red.active) (hent : s.ring.entry n = none) :
    (s.poisonRewrite h n last).lineAt k =
      if k = n then poisonLine n ((s.poisonReport h n).expectHead n) last else s.lineAt k := by
  have hent' : (s.poisonReport h n).ring.entry n = none := by rw [State.poisonReport_ring, hent]
  have hfull (l : Line) : (s.poisonReport h n).writeFull n l = (s.poisonReport h n).setLine n l := by
    simp only [State.writeFull, hent']
  simp only [State.poisonRewrite_ring s h n last hn, if_pos hact, hfull]
  rcases (s.poisonReport h n).expecting n with _ | x
  · rw [State.lineAt_setLine, State.lineAt_poisonReport]
  · rw [State.lineAt_markPoison, State.lineAt_setLine, State.lineAt_poisonReport]

/-- A fetch of a line that waits for nothing, while nothing is captured, is its check. -/
theorem exec_lineFetch {s : State} {h : Hub} {n : Nat} {errs : List Line} (hl : s.live = true) (hs : s.ring.swept = true)
    (hn : n < s.ring.size) (hk : s.ring.isLocked n = false) (hc : (s.checkedFetch h n errs).trig.cap = none) :
    exec (.lineFetch h n errs) s = .next (s.checkedFetch h n errs) := by
  have hcount : n < s.ring.lineCount := by
    simp only [Ring.lineCount, Ring.storeStart, Ring.stagingStart, Ring.testStart]; omega
  have hcap : (s.checkedFetch h n errs).captureLine n = s.checkedFetch h n errs := by
    simp only [State.captureLine, hc]
  simp only [exec, execLineFetch, State.lineFetch, hl, hs, hk, hcount, decide_true, Bool.not_false, Bool.and_self,
    State.when_true, hcap, ite_self]

theorem exec_lineFetch_locked {s : State} (h : Hub) {n : Nat} (errs : List Line) (hk : s.ring.isLocked n = true) :
    exec (.lineFetch h n errs) s = .next s := by
  simp only [exec, execLineFetch, State.lineFetch, hk, Bool.not_true, Bool.and_false, State.when_false]

/-- A ring line that fails three tries is reported, counted, a local error and, in the active hub, poisoned (R210, R211). -/
theorem answers_lineFetch_bad {s : State} {h : Hub} {n : Nat} {errs : List Line} (hl : s.live = true)
    (hs : s.ring.swept = true) (hc : s.trig.cap = none) (hn : n < s.ring.size) (hk : s.ring.isLocked n = false)
    (hb : ∀ i, i < 3 → lineGood n (s.lineAt n ^^^ errs.getD i 0) = false) :
    Answers (.lineFetch h n errs) s (fun t =>
      Raised s t 0x4001 ∧ Counted s t (figMem h 3 0) 1 ∧ (.mempoison, s.clock.step) ∈ (t.hubRed h).errs ∧
      (h = s.red.active → s.ring.entry n = none → (lineHead (t.lineAt n)).poison = true ∧
        ∀ k, k ≠ n → k < s.ring.size → t.lineAt k = s.lineAt k)) := by
  have hchk := State.checkedFetch_bad (h := h) hn hb
  have hring := s.ringOnly_poisonRewrite h n (s.lineAt n ^^^ errs.getD 2 0) hn
  refine ⟨_, exec_lineFetch hl hs hn hk (by rw [hchk, hring.trig, State.poisonReport_trig, hc]), ?_⟩
  rw [hchk]
  refine ⟨?_, ?_, ?_, fun hact hent => ⟨?_, fun k hkn _ => ?_⟩⟩
  · obtain ⟨e, he, hcode⟩ := s.poisonReport_raised h n
    exact ⟨e, by rw [hring.hay, he], hcode⟩
  · exact (s.poisonReport_counted h n).of_count_eq (hring.count _ (by cases h <;> decide))
  · have hred : (s.poisonRewrite h n (s.lineAt n ^^^ errs.getD 2 0)).hubRed h = (s.poisonReport h n).hubRed h := by
      cases h <;> simp only [State.hubRed, hring.red]
    rw [hred]
    exact s.poisonReport_errs h n
  · rw [s.lineAt_poisonRewrite h n n _ hn hact hent, if_pos rfl, lineHead_poisonLine]
  · rw [s.lineAt_poisonRewrite h n k _ hn hact hent, if_neg hkn]

/-! ### The split-write window (R224, R225) -/

theorem State.windowOpen_iff (s : State) : (s.live && s.windowOpen) = true ↔ s.live = true ∧ s.node.mode = .standby := by
  rw [State.windowOpen, Bool.and_eq_true, beq_iff_eq]

theorem exec_go_of_closed {s : State} (h : Hub) (hc : ¬(s.live = true ∧ s.node.mode = .standby)) :
    exec (.go h) s = .next s := by
  rw [← s.windowOpen_iff, Bool.not_eq_true] at hc
  simp only [exec, execGo, hc, State.when_false]

theorem exec_rd_of_closed {s : State} (h : Hub) (err : Line) (hc : ¬(s.live = true ∧ s.node.mode = .standby)) :
    exec (.rd h err) s = .next s := by
  rw [← s.windowOpen_iff, Bool.not_eq_true] at hc
  simp only [exec, execRd, hc, State.when_false]

theorem exec_go_of_open {s : State} (h : Hub) (ho : s.live = true ∧ s.node.mode = .standby) :
    exec (.go h) s = .next (s.windowGo h) := by
  simp only [exec, execGo, s.windowOpen_iff.2 ho, State.when_true]

theorem exec_rd_of_open {s : State} (h : Hub) (err : Line) (ho : s.live = true ∧ s.node.mode = .standby) :
    exec (.rd h err) s = .next (s.windowRd h err) := by
  simp only [exec, execRd, s.windowOpen_iff.2 ho, State.when_true]

theorem State.lineAt_modWindows (s : State) (f : Hub → Window → Window) (n : Nat) : (s.modWindows f).lineAt n = s.lineAt n :=
  rfl

theorem State.setLine_modWindows (s : State) (n : Nat) (l : Line) (f : Hub → Window → Window) :
    (s.setLine n l).modWindows f =
      { s with window := f .a s.window, windowB := f .b s.windowB, ring := { s.ring with lines := (s.setLine n l).ring.lines } } :=
  rfl

/-- GO on the test line stores the staged line there, and completes in both hubs. -/
theorem answers_go_line {s : State} {h : Hub} (ho : s.live = true ∧ s.node.mode = .standby) (ht : (s.win h).target = 0) :
    Answers (.go h) s (fun t =>
      t = { s with window := s.window.completed, windowB := s.windowB.completed, ring := { s.ring with lines := t.ring.lines } } ∧
      t.lineAt (s.ring.testStart + (s.win h).lineNo.toNat) = (s.win h).staged ∧
      ∀ m, m ≠ s.ring.testStart + (s.win h).lineNo.toNat → t.lineAt m = s.lineAt m) := by
  have hgo : s.windowGo h = (s.setLine (s.ring.testStart + (s.win h).lineNo.toNat) (s.win h).staged).modWindows
      (fun _ w => w.completed) := by
    simp only [State.windowGo, ht]; rfl
  refine ⟨_, exec_go_of_open h ho, ?_⟩
  rw [hgo]
  refine ⟨s.setLine_modWindows .., ?_, fun m hm => ?_⟩
  · rw [State.lineAt_modWindows, State.lineAt_setLine, if_pos rfl]
  · rw [State.lineAt_modWindows, State.lineAt_setLine, if_neg hm]

/-- GO on the test word stores the staged word and its parity bit in both hubs. -/
theorem exec_go_word {s : State} {h : Hub} (ho : s.live = true ∧ s.node.mode = .standby) (ht : (s.win h).target = 1) :
    exec (.go h) s = .next (s.modWindows (fun _ w => { w with word := w.data.setWidth 32, wordPar := w.swpar }.completed)) := by
  rw [exec_go_of_open h ho]
  simp only [State.windowGo, ht]
  rfl

/-- The window after a read of its test line, which arrives as `l`. -/
def Window.readLine (w : Window) (n : Nat) (l : Line) : Window :=
  { w with read := l, err := !lineGood n l, misdir := !lineAtHome n l }.completed

/-- The window after a read of its test word, which arrives as `v` with the parity bit `p`. -/
def Window.readWord (w : Window) (v : BitVec 32) (p : Bool) : Window :=
  { w with read := BitVec.ofNat 1024 (v.toNat + p.toNat * 2 ^ 32), err := !parityOk v p, misdir := false }.completed

theorem State.windowReads_line (s : State) {w : Window} (err : Line) (ht : w.target = 0) :
    s.windowReads w err =
      w.readLine (s.ring.testStart + w.lineNo.toNat) (s.readLine (s.ring.testStart + w.lineNo.toNat) ^^^ err) := by
  cases w
  simp only at ht
  subst ht
  rfl

theorem State.windowReads_word (s : State) {w : Window} (err : Line) (ht : w.target = 1) :
    s.windowReads w err = w.readWord (w.word ^^^ err.setWidth 32) (w.wordPar ^^ err.getLsbD 32) := by
  rw [State.windowReads, Window.readWord, ← b2n_eq_toNat]
  cases w
  simp only at ht
  subst ht
  rfl

end Sys2Proof.Machine

open Sys2Proof Sys2Proof.Machine

/-- Settles O45: each clause is one case of the window, of the refresh or of the three tries of a fetch. -/
theorem memoryIsChecked : Obligations.MemoryIsChecked := by
  unfold Obligations.MemoryIsChecked
  intro s h
  refine ⟨fun hc => ⟨exec_go_of_closed h hc, fun err => exec_rd_of_closed h err hc⟩, fun ho ht => ?_, fun ho ht => ?_,
    fun err ho ht => ?_, fun err ho ht => ?_, fun hl => ?_, fun m errs _ hk => exec_lineFetch_locked h errs hk,
    fun m errs hl hs hc hm hk => ⟨fun h0 => ?_, fun h0 h1 => ?_, fun hb => answers_lineFetch_bad hl hs hc hm hk hb⟩⟩
  · exact answers_go_line ho ht
  · exact exec_go_word ho ht
  · rw [exec_rd_of_open h err ho, State.windowRd, State.modWindows, s.windowReads_line (w := s.window) _ (ht .a),
      s.windowReads_line (w := s.windowB) _ (ht .b)]
    rfl
  · rw [exec_rd_of_open h err ho, State.windowRd, State.modWindows, s.windowReads_word (w := s.window) _ (ht .a),
      s.windowReads_word (w := s.windowB) _ (ht .b)]
    rfl
  · simp only [exec, execRefreshCommand, hl, State.when_true, and_self]
  · have hchk := State.checkedFetch_good (h := h) h0
    rw [exec_lineFetch hl hs hm hk (by rw [hchk, hc]), hchk]
  · have hchk := State.checkedFetch_second (h := h) hm h0 h1
    refine ⟨_, exec_lineFetch hl hs hm hk (by rw [hchk, State.bump_trig, hc]), ?_⟩
    rw [hchk]
    exact ⟨rfl, s.bump_counted _ 1⟩
end

section
/-!
SUPPORT. The writes of entries, the scrubber and the replay of words, and the statement on them (R27 to R29, R215 to R219).
-/

namespace Sys2Proof.Machine

/-! ### Writes of bytes through the merge buffer (R215, R216) -/

theorem exec_mergeWrite {s : State} {line off : Nat} {bs : List Byte} (hl : s.live = true) (hn : line < s.ring.lineCount)
    (ho : off + bs.length ≤ 128) : exec (.mergeWrite line off bs) s = .next (s.mergeWrite line off bs) := by
  simp only [exec, execMergeWrite, State.mergeWriteRow, hl, hn, ho, decide_true, Bool.and_self, State.when_true]

theorem Ring.entry_line {r : Ring} {n : Nat} {e : MergeEntry} (h : r.entry n = some e) : e.line = n :=
  eq_of_beq (List.find?_some (p := fun e : MergeEntry => e.line == n) h)

/-- The entry that a line's bytes join: the line's own, or a free one. -/
def Ring.entryOr (r : Ring) (n : Nat) : MergeEntry := (r.entry n).getD ⟨n, 0, 0, false⟩

theorem Ring.entryOr_line (r : Ring) (n : Nat) : (r.entryOr n).line = n := by
  unfold Ring.entryOr
  rcases h : r.entry n with _ | e
  · rfl
  · exact Ring.entry_line h

/-- The entry of a line after bytes merged into it; one that became full is locked. -/
def Ring.merged (r : Ring) (n off : Nat) (bs : List Byte) : MergeEntry :=
  let e := (r.entryOr n).merge off bs
  { e with locked := e.full }

theorem Ring.mergeIn_eq (r : Ring) (n off : Nat) (bs : List Byte) :
    r.mergeIn n off bs = { r with merge := r.merge.filter (fun x => x.line != n) ++ [r.merged n off bs] } := rfl

theorem Ring.merged_locked (r : Ring) (n off : Nat) (bs : List Byte) :
    (r.merged n off bs).locked = true ↔ ∀ i, i < 128 → (r.merged n off bs).valid.getLsbD i = true :=
  MergeEntry.full_iff _

theorem Ring.merged_line (r : Ring) (n off : Nat) (bs : List Byte) (h : off + bs.length ≤ 128) :
    (r.merged n off bs).line = n := (MergeEntry.merge_line bs _ off h).trans (r.entryOr_line n)

theorem Ring.merged_valid (r : Ring) (n off : Nat) (bs : List Byte) (h : off + bs.length ≤ 128) (i : Nat) (hi : i < 128) :
    (r.merged n off bs).valid.getLsbD i = ((r.entryOr n).valid.getLsbD i || decide (off ≤ i ∧ i < off + bs.length)) :=
  MergeEntry.merge_valid bs _ off i h hi

theorem Ring.merged_byte (r : Ring) (n off : Nat) (bs : List Byte) (h : off + bs.length ≤ 128) (i : Nat) (hi : i < 128) :
    (r.merged n off bs).data.toNat / 2 ^ (8 * i) % 256 =
      if off ≤ i ∧ i < off + bs.length then (bs.getD (i - off) 0).toNat
      else (r.entryOr n).data.toNat / 2 ^ (8 * i) % 256 := MergeEntry.merge_byte bs _ off i h hi

theorem State.mergeWrite_of_room {s : State} {n : Nat} (off : Nat) (bs : List Byte) (h : s.ring.mustWait n = false) :
    s.mergeWrite n off bs = { s with ring := s.ring.mergeIn n off bs } := by
  simp only [State.mergeWrite, h, Bool.false_eq_true, if_false]

/-- A write to a line without an entry takes a free one. -/
theorem answers_mergeWrite_free {s : State} {line off : Nat} {bs : List Byte} (hl : s.live = true)
    (hn : line < s.ring.lineCount) (ho : off + bs.length ≤ 128) (he : s.ring.entry line = none)
    (hq : s.ring.mergeQ.any (fun x => x.1 == line) = false) (hr : s.ring.merge.length < 32) :
    ∃ e, exec (.mergeWrite line off bs) s = .next { s with ring := { s.ring with merge := s.ring.merge ++ [e] } } ∧
      e.line = line ∧ (∀ i, i < 128 → e.valid.getLsbD i = decide (off ≤ i ∧ i < off + bs.length)) ∧
      (∀ i, i < bs.length → e.data.toNat / 2 ^ (8 * (off + i)) % 256 = (bs.getD i 0).toNat) ∧
      (e.locked = true ↔ bs.length = 128) := by
  have hroom : s.ring.mustWait line = false := by
    simp only [Ring.mustWait, Ring.isLocked, he, hq, mergeEntries, Bool.false_or, Option.isNone_none, Bool.true_and]
    exact decide_eq_false (by omega)
  have hkeep : s.ring.merge.filter (fun x => x.line != line) = s.ring.merge := by
    rw [List.filter_eq_self]
    intro x hx
    exact bne_iff_ne.2 fun h => List.find?_eq_none.1 he x hx (beq_iff_eq.2 h)
  have hnew : s.ring.entryOr line = ⟨line, 0, 0, false⟩ := by rw [Ring.entryOr, he]; rfl
  have hvalid (i : Nat) (hi : i < 128) :
      (s.ring.merged line off bs).valid.getLsbD i = decide (off ≤ i ∧ i < off + bs.length) := by
    rw [s.ring.merged_valid line off bs ho i hi, hnew]
    exact (congrArg (· || _) BitVec.getLsbD_zero).trans (Bool.false_or _)
  refine ⟨s.ring.merged line off bs, ?_, s.ring.merged_line line off bs ho, hvalid, fun i hi => ?_, ?_⟩
  · rw [exec_mergeWrite hl hn ho, State.mergeWrite_of_room off bs hroom, Ring.mergeIn_eq, hkeep]
  · rw [s.ring.merged_byte line off bs ho (off + i) (by omega), if_pos (by omega), Nat.add_sub_cancel_left]
  · rw [Ring.merged_locked]
    constructor
    · intro hall
      have h0 := (hvalid 0 (by decide)).symm.trans (hall 0 (by decide))
      have h127 := (hvalid 127 (by decide)).symm.trans (hall 127 (by decide))
      simp only [decide_eq_true_eq] at h0 h127
      omega
    · intro hlen i hi
      rw [hvalid i hi, decide_eq_true_eq]
      omega

/-- A write to a line whose entry is not locked joins it. -/
theorem answers_mergeWrite_join {s : State} {line off : Nat} {bs : List Byte} {e : MergeEntry} (hl : s.live = true)
    (hn : line < s.ring.lineCount) (ho : off + bs.length ≤ 128) (he : s.ring.entry line = some e) (hk : e.locked = false)
    (hq : s.ring.mergeQ.any (fun x => x.1 == line) = false) :
    ∃ e', exec (.mergeWrite line off bs) s = .next { s with
        ring := { s.ring with merge := s.ring.merge.filter (fun x => x.line != line) ++ [e'] } } ∧ e'.line = line ∧
      (∀ i, i < 128 → e'.valid.getLsbD i = (e.valid.getLsbD i || decide (off ≤ i ∧ i < off + bs.length))) ∧
      (∀ i, i < 128 → e'.data.toNat / 2 ^ (8 * i) % 256 =
        if off ≤ i ∧ i < off + bs.length then (bs.getD (i - off) 0).toNat else e.data.toNat / 2 ^ (8 * i) % 256) ∧
      (e'.locked = true ↔ ∀ i, i < 128 → e'.valid.getLsbD i = true) := by
  have hroom : s.ring.mustWait line = false := by
    simp only [Ring.mustWait, Ring.isLocked, he, hq, hk, Option.isNone_some, Bool.false_and, Bool.or_self]
  have hold : s.ring.entryOr line = e := by rw [Ring.entryOr, he]; rfl
  refine ⟨s.ring.merged line off bs, ?_, s.ring.merged_line line off bs ho, fun i hi => ?_, fun i hi => ?_,
    s.ring.merged_locked line off bs⟩
  · rw [exec_mergeWrite hl hn ho, State.mergeWrite_of_room off bs hroom, Ring.mergeIn_eq]
  · rw [s.ring.merged_valid line off bs ho i hi, hold]
  · rw [s.ring.merged_byte line off bs ho i hi, hold]

/-- A write to a line whose entry is being written waits, and is counted. -/
theorem answers_mergeWrite_locked {s : State} {line off : Nat} {bs : List Byte} {e : MergeEntry} (hl : s.live = true)
    (hn : line < s.ring.lineCount) (ho : off + bs.length ≤ 128) (he : s.ring.entry line = some e) (hk : e.locked = true) :
    Answers (.mergeWrite line off bs) s (fun t =>
      t = { s with ring := { s.ring with mergeQ := s.ring.mergeQ ++ [(line, off, bs)] }, counters := t.counters } ∧
      Counted s t (figMemBoth 8 2) 1) := by
  have hwait : s.ring.mustWait line = true := by
    simp only [Ring.mustWait, Ring.isLocked, he, hk, Bool.or_true, Bool.true_or]
  have hwrite : s.mergeWrite line off bs =
      State.bump { s with ring := { s.ring with mergeQ := s.ring.mergeQ ++ [(line, off, bs)] } } (figMemBoth 8 2) := by
    simp only [State.mergeWrite, hwait, if_true, he, Option.isNone_some, Bool.false_and, Bool.false_eq_true, if_false,
      Ring.waitIn]
  refine ⟨_, exec_mergeWrite hl hn ho, ?_⟩
  rw [hwrite]
  exact ⟨rfl, State.bump_counted _ _ 1⟩

/-! ### The write of an entry (R216) -/

/-- The line that the write of an entry stores: the merged payload, the header with INIT ended where the entry is partial, and a new
check. -/
def entryLine (n : Nat) (l : Line) (e : MergeEntry) : Line :=
  makeLine (linePayload (overlay l e))
    (if e.full then bitsAt (overlay l e).toNat 896 64 else { lineHead (overlay l e) with init := false }.word)
    (lineMark n writerMerge)

theorem linePayload_entryLine (n : Nat) (l : Line) (e : MergeEntry) :
    linePayload (entryLine n l e) = linePayload (overlay l e) := by
  rw [entryLine, linePayload_makeLine, linePayload, bitsAt, Nat.mod_mod]

theorem init_entryLine {n : Nat} {l : Line} {e : MergeEntry} (h : e.full = false) :
    (lineHead (entryLine n l e)).init = false := by
  rw [entryLine, h, if_neg Bool.false_ne_true]
  exact lineHead_makeLine_init ..

/-- The entry of a line leaves the merge buffer. -/
def State.freeEntry (s : State) (n : Nat) : State :=
  { s with ring := { s.ring with merge := s.ring.merge.filter (fun x => x.line != n) } }

theorem State.lineAt_freeEntry (s : State) (n m : Nat) : (s.freeEntry n).lineAt m = s.lineAt m :=
  State.SameBase.lineAt ⟨rfl, rfl, rfl, rfl, rfl, rfl⟩ rfl m

theorem State.lineAt_bump (s : State) (f : Fig) (k m : Nat) : (s.bump f k).lineAt m = s.lineAt m :=
  State.SameBase.lineAt ⟨rfl, rfl, rfl, rfl, rfl, rfl⟩ rfl m

/-- The write of an entry of line n: the entry leaves, the write is counted in quantity q of its figure, and the line is stored. -/
def State.storeEntry (s : State) (n q : Nat) (l : Line) : State := ((s.freeEntry n).bump (figMemBoth 8 q)).setLine n l

theorem State.storeEntry_frame (s : State) (n q : Nat) (l : Line) :
    s.storeEntry n q l = { s with
      ring := { s.ring with merge := (s.storeEntry n q l).ring.merge, lines := (s.storeEntry n q l).ring.lines }
      counters := (s.storeEntry n q l).counters } := rfl

theorem State.storeEntry_merge (s : State) (n q : Nat) (l : Line) :
    (s.storeEntry n q l).ring.merge = s.ring.merge.filter (fun x => x.line ≠ n) :=
  List.filter_congr fun x _ => by rw [Bool.eq_iff_iff, bne_iff_ne, decide_eq_true_eq]

theorem State.storeEntry_mergeQ (s : State) (n q : Nat) (l : Line) : (s.storeEntry n q l).ring.mergeQ = s.ring.mergeQ := rfl

theorem State.storeEntry_counted (s : State) (n q : Nat) (l : Line) : Counted s (s.storeEntry n q l) (figMemBoth 8 q) 1 :=
  (s.freeEntry n).bump_counted (figMemBoth 8 q) 1

theorem State.lineAt_storeEntry (s : State) (n q m : Nat) (l : Line) :
    (s.storeEntry n q l).lineAt m = if m = n then l else s.lineAt m := by
  rw [State.storeEntry, State.lineAt_setLine, State.lineAt_bump, State.lineAt_freeEntry]

/-- The write of an entry that is full, or whose line is good at the first try, stores the merged line. -/
theorem State.writeEntry_eq {s : State} {e : MergeEntry} {errs : List Line}
    (hg : e.full = true ∨ lineGood e.line (s.lineAt e.line ^^^ errs.getD 0 0) = true) :
    s.writeEntry e errs = s.storeEntry e.line (if e.full then 0 else 1) (entryLine e.line (s.lineAt e.line) e) := by
  have hfetch : (if e.full then s.freeEntry e.line else (s.freeEntry e.line).checkedFetch s.red.active e.line errs) =
      s.freeEntry e.line := by
    rcases hg with hf | hg
    · exact if_pos hf
    · rw [State.checkedFetch_good (by rw [State.lineAt_freeEntry]; exact hg), ite_self]
  change (State.bump (if e.full then s.freeEntry e.line else (s.freeEntry e.line).checkedFetch s.red.active e.line errs)
    (figMemBoth 8 (if e.full then 0 else 1))).setLine e.line (entryLine e.line (State.lineAt (State.bump
      (if e.full then s.freeEntry e.line else (s.freeEntry e.line).checkedFetch s.red.active e.line errs) _) e.line) e) = _
  rw [hfetch, State.lineAt_bump, State.lineAt_freeEntry, State.storeEntry]

theorem State.mergeDrain_nil {s : State} (h : s.ring.mergeQ = []) : s.mergeDrain = s := by
  have hring : ({ s.ring with mergeQ := [] } : Ring) = s.ring := by rw [← h]
  rw [State.mergeDrain, h, Ring.drain, hring]

theorem exec_lineWriteDone_locked {s : State} {line : Nat} {e : MergeEntry} (errs : List Line) (hl : s.live = true)
    (he : s.ring.entry line = some e) (hk : e.locked = true) :
    exec (.lineWriteDone line errs) s = .next (s.writeEntry e errs).mergeDrain := by
  simp only [exec, execLineWriteDone, hl, State.when_true, State.lineWriteDone, he, hk, if_true]

/-- The write of a locked entry for which nothing waits. -/
theorem answers_lineWriteDone {s : State} {line : Nat} {e : MergeEntry} {errs : List Line} (hl : s.live = true)
    (he : s.ring.entry line = some e) (hk : e.locked = true) (hq : s.ring.mergeQ = [])
    (hg : e.valid = BitVec.allOnes 128 ∨ lineGood line (s.lineAt line ^^^ errs.getD 0 0) = true) :
    Answers (.lineWriteDone line errs) s (fun t =>
      t = { s with ring := { s.ring with merge := t.ring.merge, lines := t.ring.lines }, counters := t.counters } ∧
      t.ring.merge = s.ring.merge.filter (fun x => x.line ≠ line) ∧
      linePayload (t.lineAt line) = linePayload (overlay (s.lineAt line) e) ∧
      Counted s t (figMemBoth 8 (if e.valid = BitVec.allOnes 128 then 0 else 1)) 1 ∧
      (e.valid ≠ BitVec.allOnes 128 → (lineHead (t.lineAt line)).init = false) ∧
      lineAtHome line (t.lineAt line) = true ∧ ∀ m, m ≠ line → t.lineAt m = s.lineAt m) := by
  have hline := Ring.entry_line he
  have hfull : e.full = true ↔ e.valid = BitVec.allOnes 128 := beq_iff_eq
  subst hline
  have hwrite := State.writeEntry_eq (s := s) (errs := errs) (hg.imp_left hfull.2)
  simp only [hfull] at hwrite
  refine ⟨s.writeEntry e errs, ?_, ?_⟩
  · rw [exec_lineWriteDone_locked errs hl he hk, State.mergeDrain_nil (by rw [hwrite, State.storeEntry_mergeQ, hq])]
  · rw [hwrite]
    refine ⟨State.storeEntry_frame .., State.storeEntry_merge .., ?_, State.storeEntry_counted .., fun hv => ?_, ?_,
      fun m hm => ?_⟩
    · rw [State.lineAt_storeEntry, if_pos rfl, linePayload_entryLine]
    · rw [State.lineAt_storeEntry, if_pos rfl, init_entryLine (Bool.eq_false_iff.2 fun h => hv (hfull.1 h))]
    · rw [State.lineAt_storeEntry, if_pos rfl, entryLine, lineAtHome_makeLine _ _ _ _ (by decide)]
    · rw [State.lineAt_storeEntry, if_neg hm]

theorem exec_lineWriteDone_unlocked {s : State} {line : Nat} (errs : List Line) (hk : s.ring.isLocked line = false) :
    exec (.lineWriteDone line errs) s = .next s := by
  have hdone : s.lineWriteDone line errs = s := by
    unfold Ring.isLocked at hk
    unfold State.lineWriteDone
    split
    · next e he =>
      rw [he] at hk
      exact if_neg (Bool.eq_false_iff.1 hk)
    · rfl
  simp only [exec, execLineWriteDone, hdone, State.when, ite_self]

/-! ### The scrubber (R217 to R219) -/

theorem exec_scrubRead {s : State} (h : Hub) (target : ScrubTarget) (n : Nat) (errs : List Line) (hl : s.live = true)
    (hs : s.ring.swept = true) (hp : s.node.pstate = .active ∨ s.node.pstate = .hush) :
    exec (.scrubRead h target n errs) s = .next (s.scrubRead h target n errs) := by
  have hrun : (s.node.pstate == .active || s.node.pstate == .hush) = true := by
    rw [Bool.or_eq_true, beq_iff_eq, beq_iff_eq]
    exact hp
  simp only [exec, execScrubRead, hl, hs, hrun, Bool.and_self, State.when_true]

/-- The scrubber waits where a line is not its next, or its entry is being written. -/
theorem State.scrubRead_waits {s : State} {h : Hub} {n : Nat} (errs : List Line)
    (hw : n ≠ (s.ring.scrubOf h).next ∨ s.ring.isLocked n = true) : s.scrubRead h .line n errs = s := if_pos hw

theorem State.scrubRead_line {s : State} {h : Hub} {n : Nat} (errs : List Line) (hn : n = (s.ring.scrubOf h).next)
    (hk : s.ring.isLocked n = false) : s.scrubRead h .line n errs = (s.scrubLine h n errs).scrubOn h :=
  if_neg fun hw => hw.elim (· hn) fun h => Bool.false_ne_true (hk.symm.trans h)

/-- A ring line ahead of the write index is passed over (R219). -/
theorem State.scrubLine_near {s : State} (h : Hub) {n : Nat} (errs : List Line) (hn : n < s.ring.size)
    (hw : s.ring.nearWrite n = true) : s.scrubLine h n errs = s := by
  simp only [State.scrubLine, Ring.area_ring hn, hw, if_true]

theorem Ring.area_store {r : Ring} {n : Nat} (h : r.storeStart ≤ n) : r.area n = .store := by
  have h1 : r.size ≤ r.testStart := Nat.le_add_right ..
  have h2 : r.testStart ≤ r.stagingStart := Nat.le_add_right ..
  have h3 : r.stagingStart ≤ r.storeStart := Nat.le_add_right ..
  unfold Ring.area
  rw [if_neg (by omega), if_neg (by omega), if_neg (by omega), if_neg (by omega)]

/-- A good line of the table store is left alone. -/
theorem State.scrubLine_store_good {s : State} (h : Hub) {n : Nat} {errs : List Line} (hn : s.ring.storeStart ≤ n)
    (hg : lineGood n (s.lineAt n ^^^ errs.getD 0 0) = true) : s.scrubLine h n errs = s := by
  simp only [State.scrubLine, Ring.area_store hn, hg, Bool.not_true, Bool.false_eq_true, if_false]

theorem Ring.scrubNext_ring {r : Ring} {n : Nat} (h : n < r.size) : r.scrubNext n = n + 1 := by
  have ht : r.testStart = r.size + 56320 := rfl
  have hc : r.lineCount = r.testStart + 1024 + 2039808 + 2097152 := rfl
  simp only [Ring.scrubNext, if_neg (show ¬n + 1 = r.testStart by omega), if_pos (show n + 1 < r.lineCount by omega)]

theorem Ring.scrubNext_last {r : Ring} {n : Nat} (h : n + 1 = r.lineCount) : r.scrubNext n = 0 := by
  have hc : r.lineCount = r.testStart + 1024 + 2039808 + 2097152 := rfl
  simp only [Ring.scrubNext, if_neg (show ¬n + 1 = r.testStart by omega), if_neg (show ¬n + 1 < r.lineCount by omega)]

/-- Within a pass, without a program, the scrubber only goes to the next line. -/
theorem State.scrubOn_within {s : State} {h : Hub} (hn : s.ring.scrubNext (s.ring.scrubOf h).next ≠ 0) (hl : s.loaded = false) :
    s.scrubOn h = { s with ring := s.ring.setScrub h { s.ring.scrubOf h with
      next := s.ring.scrubNext (s.ring.scrubOf h).next } } := by
  simp only [State.scrubOn, hl, Bool.false_eq_true, if_false, if_neg hn]

/-- After the last line a pass is complete and a new one begins. -/
theorem State.scrubOn_last {s : State} {h : Hub} (hn : s.ring.scrubNext (s.ring.scrubOf h).next = 0) :
    s.scrubOn h = { s with ring := s.ring.setScrub h {
      next := 0, passes := (s.ring.scrubOf h).passes + 1, since := s.clock.evals, rate := ((s.scrubOn h).ring.scrubOf h).rate } } := by
  simp only [State.scrubOn, hn, if_true, Ring.scrubOf_setScrub]

/-- A word of hub SRAM that passes its parity changes nothing. -/
theorem State.scrubRead_sram_good (s : State) (h : Hub) {target : ScrubTarget} (n : Nat) {errs : List Line}
    (ht : target ≠ .line) (he : errs.getD 0 0 = 0) : s.scrubRead h target n errs = s := by
  have hbad : (errs.getD 0 0 != 0) = false := by rw [he, bne_self_eq_false]
  cases target with
  | line => exact absurd rfl ht
  | sramTable => simp only [State.scrubRead, hbad, Bool.false_eq_true, if_false]
  | sramWorking => simp only [State.scrubRead, hbad, Bool.false_eq_true, if_false]
  | sramFree => simp only [State.scrubRead, hbad, Bool.false_eq_true, if_false]

/-- A finding is counted by area and row, and raises SCRUB where it is logged (R218). -/
theorem State.scrubFound_counted (s : State) (h : Hub) (area row addr : Nat) (log : Bool) :
    Counted s (s.scrubFound h area row addr log) (figMem h 6 (area - 1) row) 1 := by
  cases log <;> exact s.bump_counted _ 1

theorem State.scrubFound_raised (s : State) (h : Hub) (area row addr : Nat) :
    Raised s (s.scrubFound h area row addr true) 0x4004 := State.post_raised ..

/-- A bad word of a table is reported, whether or not its reload completes poisoned. -/
theorem State.scrubTable_found (s : State) (h : Hub) (n : Nat) :
    (s.scrubTable h n).hay = (s.scrubFound h 8 8 n true).hay ∧
      (s.scrubTable h n).count (figMem h 6 7 8) = (s.scrubFound h 8 8 n true).count (figMem h 6 7 8) := by
  unfold State.scrubTable
  dsimp only
  split
  · refine ⟨?_, ?_⟩
    · rw [State.localErr_hay, State.bump_hay]
    · rw [State.count_localErr _ _ _ _ (by cases h <;> decide), State.count_bump, if_neg (by cases h <;> decide)]
  · exact ⟨rfl, rfl⟩

theorem answers_scrubRead_sram {s : State} (h : Hub) (n : Nat) {errs : List Line} (hl : s.live = true)
    (hs : s.ring.swept = true) (hp : s.node.pstate = .active ∨ s.node.pstate = .hush) (he : errs.getD 0 0 ≠ 0) :
    Answers (.scrubRead h .sramTable n errs) s (fun t => Raised s t 0x4004 ∧ Counted s t (figMem h 6 7 8) 1) ∧
    Answers (.scrubRead h .sramWorking n errs) s (fun t => Counted s t (figMem h 6 7 9) 1 ∧
      (h = s.red.active → Tbl.get false t.gmem.tags n = true)) ∧
    Answers (.scrubRead h .sramFree n errs) s (fun t => Raised s t 0x4004 ∧ Counted s t (figMem h 6 7 10) 1 ∧
      (h = s.red.active → Tbl.get false t.gmem.tags n = false)) := by
  have hbad : (errs.getD 0 0 != 0) = true := bne_iff_ne.2 he
  refine ⟨⟨_, exec_scrubRead h _ n errs hl hs hp, ?_⟩, ⟨_, exec_scrubRead h _ n errs hl hs hp, ?_⟩,
    ⟨_, exec_scrubRead h _ n errs hl hs hp, ?_⟩⟩
  · simp only [State.scrubRead, hbad, if_true]
    obtain ⟨hhay, hcount⟩ := s.scrubTable_found h n
    obtain ⟨x, hx, hcode⟩ := s.scrubFound_raised h 8 8 n
    exact ⟨⟨x, by rw [hhay, hx], hcode⟩, (s.scrubFound_counted h 8 8 n true).of_count_eq hcount⟩
  · simp only [State.scrubRead, hbad, if_true]
    have hcounted := s.scrubFound_counted h 8 9 n false
    split
    · next => exact ⟨hcounted, fun _ => by simp only [Tbl.get_set_self]⟩
    · next hact => exact ⟨hcounted, fun ha => absurd ha hact⟩
  · simp only [State.scrubRead, hbad, if_true]
    have hcounted := s.scrubFound_counted h 8 10 n true
    have hraised := s.scrubFound_raised h 8 10 n
    split
    · next => exact ⟨hraised, hcounted, fun _ => by simp only [Tbl.get_set_self]⟩
    · next hact => exact ⟨hraised, hcounted, fun ha => absurd ha hact⟩

/-! ### Parity and replay (R27 to R29) -/

theorem exec_parityReplay (stage : Stage) (err : BitVec 33) (s : State) :
    exec (.parityReplay stage err) s = .next (s.parityReplay stage err) := rfl

/-- The count of replays of a stage is set. -/
def State.setReplays (s : State) (stage : Stage) (n : Nat) : State :=
  { s with gmem := { s.gmem with replays := Tbl.set 0 s.gmem.replays (stageCode stage) n } }

/-- Replays so far of the word that a stage holds. -/
def State.replaysOf (s : State) (stage : Stage) : Nat := Tbl.get 0 s.gmem.replays (stageCode stage)

theorem State.replaysOf_setReplays (s : State) (stage : Stage) (n : Nat) : (s.setReplays stage n).replaysOf stage = n :=
  Tbl.get_set_self ..

/-- A change of a held record leaves the byte memories, the counters, the redundancy state and the clock alone. -/
theorem State.modHeld_keeps (s : State) (st : Stage) (f : FeRec → FeRec) (g : SRec → SRec) :
    (s.modHeld st f g).gmem = s.gmem ∧ (s.modHeld st f g).counters = s.counters ∧ (s.modHeld st f g).red = s.red ∧
      (s.modHeld st f g).clock = s.clock := by
  cases st with
  | ingress h r w =>
    unfold State.modHeld
    dsimp only
    split <;> exact ⟨rfl, rfl, rfl, rfl⟩
  | blockFifo | derandomiser | cluster | hub => exact ⟨rfl, rfl, rfl, rfl⟩

/-- At the head of a block FIFO the first record changes. -/
theorem State.modHeld_fifo {s : State} {b : Fin 64} {r : FeRec} {rest : List FeRec} (w : Fin 3) (f : FeRec → FeRec)
    (g : SRec → SRec) (h : (s.block b).fifo = r :: rest) :
    ((s.modHeld (.blockFifo b w) f g).block b).fifo = f r :: rest := by
  simp only [State.modHeld, State.modBlock_eq, State.block_setBlock, if_true, h, modHead]

/-- A good word: the record takes the flips that parity does not show. -/
theorem State.parityReplay_good {s : State} {st : Stage} {err : BitVec 33} (hl : s.live = true)
    (hg : arrivesOk (s.heldWord st) err = true) :
    s.parityReplay st err = (s.setReplays st 0).modHeld st
      (fun r => { r with bits := rhrFlip r.bits (stageWord st) (err.setWidth 32) })
      (fun r => { r with bits := rhrFlip r.bits (stageWord st) (err.setWidth 32) }) := by
  simp only [State.parityReplay, hl, hg, Bool.not_true, Bool.false_eq_true, if_false, if_true]; rfl

/-- The owner's report of a bad word that is replayed once more. -/
def State.replayCounted (s : State) (st : Stage) : State :=
  match stageOwner st with
  | some h => s.bump (figRedund 6 0 (h.idx + 1))
  | none => s

/-- The owner's report of a bad word that is accepted. -/
def State.wordPoisoned (s : State) (st : Stage) : State :=
  match stageOwner st with
  | some h => (s.localErr h .wordpoison).bump (figRedund 7 1 (h.idx + 1) (stageScope st))
  | none => s

theorem State.parityReplay_again {s : State} {st : Stage} {err : BitVec 33} (hl : s.live = true)
    (hb : ¬arrivesOk (s.heldWord st) err = true) (hn : s.replaysOf st < 3) :
    s.parityReplay st err = (s.setReplays st (s.replaysOf st + 1)).replayCounted st := by
  unfold State.replaysOf at hn
  simp only [State.parityReplay, hl, hb, hn, Bool.not_true, Bool.false_eq_true, if_false, if_true, State.replayCounted]; rfl

theorem State.parityReplay_accepts {s : State} {st : Stage} {err : BitVec 33} (hl : s.live = true)
    (hb : ¬arrivesOk (s.heldWord st) err = true) (hn : 3 ≤ s.replaysOf st) :
    s.parityReplay st err =
      ((s.setReplays st 0).modHeld st (fun r => r.fail (stageWord st)) (fun r => r.fail (stageWord st))).wordPoisoned st := by
  unfold State.replaysOf at hn
  simp only [State.parityReplay, hl, hb, Nat.not_lt.2 hn, Bool.not_true, Bool.false_eq_true, if_false, State.wordPoisoned]; rfl

/-- A good word leaves nothing to replay and nothing to report. -/
theorem answers_parityReplay_good {s : State} {st : Stage} {err : BitVec 33} (hl : s.live = true)
    (hg : arrivesOk (s.heldWord st) err = true) :
    Answers (.parityReplay st err) s (fun t => t.replaysOf st = 0 ∧ t.counters = s.counters ∧ t.red = s.red ∧
      ∀ (b : Fin 64) (w : Fin 3), st = .blockFifo b w → ∀ r rest, (s.block b).fifo = r :: rest →
        ∃ r', (t.block b).fifo = r' :: rest ∧
          r' = { r with bits := r.bits ^^^ (err.setWidth 32).setWidth 96 <<< (32 * w.val) }) := by
  refine ⟨_, rfl, ?_⟩
  rw [State.parityReplay_good hl hg]
  obtain ⟨hgmem, hcounters, hred, -⟩ := (s.setReplays st 0).modHeld_keeps st
    (fun r => { r with bits := rhrFlip r.bits (stageWord st) (err.setWidth 32) })
    (fun r => { r with bits := rhrFlip r.bits (stageWord st) (err.setWidth 32) })
  refine ⟨?_, hcounters, hred, fun b w hst r rest hr => ?_⟩
  · rw [State.replaysOf, hgmem]
    exact s.replaysOf_setReplays st 0
  · subst hst
    exact ⟨_, State.modHeld_fifo (s := s.setReplays (.blockFifo b w) 0) w _ _ hr, rfl⟩

/-- A bad word is replayed once more, and the hub that owns the stage counts it. -/
theorem answers_parityReplay_again {s : State} {st : Stage} {err : BitVec 33} (hl : s.live = true)
    (hb : ¬arrivesOk (s.heldWord st) err = true) (hn : s.replaysOf st < 3) :
    Answers (.parityReplay st err) s (fun t => t.replaysOf st = s.replaysOf st + 1 ∧
      t = { s with gmem := { s.gmem with replays := t.gmem.replays }, counters := t.counters } ∧
      ∀ h, stageOwner st = some h → Counted s t (figRedund 6 0 (h.idx + 1)) 1) := by
  refine ⟨_, rfl, ?_⟩
  rw [State.parityReplay_again hl hb hn]
  have hset := s.replaysOf_setReplays st (s.replaysOf st + 1)
  unfold State.replayCounted
  split
  · next h ho =>
    refine ⟨hset, rfl, fun k hk => ?_⟩
    obtain rfl : h = k := Option.some.inj (ho.symm.trans hk)
    exact (s.setReplays st _).bump_counted (figRedund 6 0 (h.idx + 1)) 1
  · next ho => exact ⟨hset, rfl, fun k hk => absurd (ho.symm.trans hk) (Option.some_ne_none k).symm⟩

/-- What the report of an accepted word leaves alone. -/
theorem State.wordPoisoned_keeps (s : State) (st : Stage) :
    (s.wordPoisoned st).gmem = s.gmem ∧ (s.wordPoisoned st).blocks = s.blocks := by
  unfold State.wordPoisoned
  split
  · exact ⟨by rw [State.bump_gmem, State.localErr_gmem], by rw [State.bump_blocks, State.localErr_blocks]⟩
  · exact ⟨rfl, rfl⟩

theorem stageScope_lt (st : Stage) : stageScope st < 65536 := by
  cases st with
  | ingress h r w =>
    have hcode : ∀ r, fifoCode (.ingress r) < 65536 := by decide
    exact hcode r
  | blockFifo | derandomiser | cluster | hub => exact (by decide : whole < 65536)

/-- The hub that owns a stage records the local error and counts the word. -/
theorem State.wordPoisoned_owner {s : State} {st : Stage} {h : Hub} (ho : stageOwner st = some h) :
    (.wordpoison, s.clock.step) ∈ ((s.wordPoisoned st).hubRed h).errs ∧
      Counted s (s.wordPoisoned st) (figRedund 7 1 (h.idx + 1) (stageScope st)) 1 := by
  have hdef : s.wordPoisoned st = (s.localErr h .wordpoison).bump (figRedund 7 1 (h.idx + 1) (stageScope st)) := by
    simp only [State.wordPoisoned, ho]
  have herrs (f : Fig) : (((s.localErr h .wordpoison).bump f).hubRed h) = (s.localErr h .wordpoison).hubRed h := by
    cases h <;> rfl
  have hkey : (figRedund 7 1 (h.idx + 1) (stageScope st)).key ≠ (⟨0x09, 3, 2, h.idx + 1, errCode .wordpoison⟩ : Fig).key := by
    have := stageScope_lt st
    cases h <;> simp only [Fig.key, figRedund, Hub.idx, errCode] <;> omega
  rw [hdef]
  refine ⟨?_, ?_⟩
  · rw [herrs, State.localErr_errs, if_pos rfl]
    exact List.mem_append_right _ (List.mem_singleton.2 rfl)
  · have hcounted := (s.localErr h .wordpoison).bump_counted (figRedund 7 1 (h.idx + 1) (stageScope st)) 1
    rwa [Counted, State.count_localErr s h .wordpoison _ hkey] at hcounted

/-- An FE record that is accepted with a bad word is poisoned, and keeps its channel only while word 2 is good. -/
theorem FeRec.fail_poison (r : FeRec) (w : Fin 3) :
    ∃ p, r.fail w.val = { r with poison := some p } ∧ (p = true ↔ w ≠ 2 ∧ r.poison ≠ some false) := by
  have hw : w.val = 2 ↔ w = 2 := by omega
  by_cases h : w.val = 2 ∨ r.poison = some false
  · refine ⟨false, by rw [FeRec.fail, if_pos h], fun hp => absurd hp Bool.false_ne_true, fun ⟨h2, hp⟩ => ?_⟩
    exact absurd h (not_or.2 ⟨fun hv => h2 (hw.1 hv), hp⟩)
  · obtain ⟨h2, hp⟩ := not_or.1 h
    exact ⟨true, by rw [FeRec.fail, if_neg h], fun _ => ⟨fun hv => h2 (hw.2 hv), hp⟩, fun _ => rfl⟩

/-- After three replays a bad word is accepted: its record is poisoned, and the hub that owns the stage reports it. -/
theorem answers_parityReplay_accepts {s : State} {st : Stage} {err : BitVec 33} (hl : s.live = true)
    (hb : ¬arrivesOk (s.heldWord st) err = true) (hn : 3 ≤ s.replaysOf st) :
    Answers (.parityReplay st err) s (fun t => t.replaysOf st = 0 ∧
      (∀ h, stageOwner st = some h → (.wordpoison, s.clock.step) ∈ (t.hubRed h).errs ∧
        Counted s t (figRedund 7 1 (h.idx + 1) (stageScope st)) 1) ∧
      ∀ (b : Fin 64) (w : Fin 3), st = .blockFifo b w → ∀ r rest, (s.block b).fifo = r :: rest →
        ∃ r', (t.block b).fifo = r' :: rest ∧
          ∃ p, r' = { r with poison := some p } ∧ (p = true ↔ w ≠ 2 ∧ r.poison ≠ some false)) := by
  refine ⟨_, rfl, ?_⟩
  rw [State.parityReplay_accepts hl hb hn]
  obtain ⟨hgmem, hcounters, -, hclock⟩ := (s.setReplays st 0).modHeld_keeps st
    (fun r => r.fail (stageWord st)) (fun r => r.fail (stageWord st))
  have hfifo {b : Fin 64} {w : Fin 3} {r : FeRec} {rest : List FeRec} (hst : st = .blockFifo b w)
      (hr : (s.block b).fifo = r :: rest) :
      (((s.setReplays st 0).modHeld st (fun r => r.fail (stageWord st)) (fun r => r.fail (stageWord st))).block b).fifo =
        r.fail w.val :: rest := by
    subst hst
    exact State.modHeld_fifo (s := s.setReplays (.blockFifo b w) 0) w _ _ hr
  generalize (s.setReplays st 0).modHeld st _ _ = u at *
  obtain ⟨hkeep, hblocks⟩ := u.wordPoisoned_keeps st
  refine ⟨?_, fun h ho => ?_, fun b w hst r rest hr => ?_⟩
  · rw [State.replaysOf, hkeep, hgmem]
    exact s.replaysOf_setReplays st 0
  · obtain ⟨herr, hcount⟩ := u.wordPoisoned_owner ho
    rw [hclock] at herr
    have hold (f : Fig) : u.count f = s.count f := congrArg (Tbl.get 0 · f.key) hcounters
    rw [Counted, hold] at hcount
    exact ⟨herr, hcount⟩
  · obtain ⟨p, hp, hiff⟩ := r.fail_poison w
    refine ⟨r.fail w.val, ?_, p, hp, hiff⟩
    rw [State.block, hblocks]
    exact hfifo hst hr

end Sys2Proof.Machine

open Sys2Proof Sys2Proof.Machine

/-- Settles O46: each clause is one case of the merge buffer, of the write of an entry, of the scrubber or of the replay of a word. -/
theorem linesAreMergedAndScrubbed : Obligations.LinesAreMergedAndScrubbed := by
  unfold Obligations.LinesAreMergedAndScrubbed
  intro s line
  refine ⟨fun off bs hl hn ho he hq hr => answers_mergeWrite_free hl hn ho he hq hr,
    fun off bs e hl hn ho he hk hq => answers_mergeWrite_join hl hn ho he hk hq,
    fun off bs e hl hn ho he hk => answers_mergeWrite_locked hl hn ho he hk, fun hl => ?_,
    fun e errs hl he hk hq hg => answers_lineWriteDone hl he hk hq hg,
    fun errs hk => exec_lineWriteDone_unlocked errs hk, fun h errs hl hs hp => ?_, fun stage err hl => ?_⟩
  · refine ⟨s.mergeIdle line, ?_, rfl, rfl⟩
    simp only [exec, execMergeEntryIdle, hl, State.when_true]
  · refine ⟨fun hw => ?_, fun hn hk hld hsize hw => ?_, fun hn hk hlast hg => ?_, fun he target ht => ?_, fun he =>
      answers_scrubRead_sram h line hl hs hp he⟩
    · rw [exec_scrubRead h _ line errs hl hs hp, State.scrubRead_waits errs hw]
    · have hnext : s.ring.scrubNext (s.ring.scrubOf h).next = line + 1 := by rw [← hn, Ring.scrubNext_ring hsize]
      rw [exec_scrubRead h _ line errs hl hs hp, State.scrubRead_line errs hn hk, State.scrubLine_near h errs hsize hw,
        State.scrubOn_within (by omega) hld, hnext]
    · have hnext : s.ring.scrubNext (s.ring.scrubOf h).next = 0 := by rw [← hn, Ring.scrubNext_last hlast]
      have hstore : s.ring.storeStart ≤ line := by
        have hc : s.ring.lineCount = s.ring.storeStart + 2097152 := rfl
        omega
      refine ⟨_, exec_scrubRead h _ line errs hl hs hp, ?_⟩
      rw [State.scrubRead_line errs hn hk, State.scrubLine_store_good h hstore hg]
      exact State.scrubOn_last hnext
    · rw [exec_scrubRead h _ line errs hl hs hp, s.scrubRead_sram_good h line ht he]
  · exact ⟨answers_parityReplay_good hl, answers_parityReplay_again hl, answers_parityReplay_accepts hl⟩
end

section
/-!
SUPPORT. The rules of a gleaner that goes on at its next instruction, and the issue of the instruction that stands at its PC.
-/

namespace Sys2Proof.Machine

/-! ### The next instruction (R143, R169) -/

/-- Going on moves the PC or records a fault, ends a wait, and changes nothing else. -/
theorem Gleaner.next_spec (x : Gleaner) :
    ∃ pc fault, x.next = { x with pc := pc, fault := fault, wait := .run } ∧ x.GoesOn { x with pc := pc, fault := fault } := by
  have hg := x.next_goes
  unfold Gleaner.GoesOn Gleaner.next at *
  generalize (x.pc.toNat + 4 : Int) = a at *
  by_cases h : 0 ≤ a ∧ a < 0x20000 ∧ a % 4 = 0
  · have hn : x.goto a = { x with pc := BitVec.ofInt 17 a, wait := .run } := by simp only [Gleaner.goto, if_pos h]
    rw [hn] at hg
    exact ⟨_, _, hn, hg⟩
  · have hn : x.goto a = { x with fault := some (6, BitVec.ofInt 17 a), wait := .run } := by
      simp only [Gleaner.goto, if_neg h]
    rw [hn] at hg
    exact ⟨_, _, hn, hg⟩

/-- A gleaner that waits for nothing only moves its PC or records a fault. -/
theorem Gleaner.next_spec_run {x : Gleaner} (hx : x.wait = .run) :
    ∃ pc fault, x.next = { x with pc := pc, fault := fault } ∧ x.GoesOn { x with pc := pc, fault := fault } := by
  obtain ⟨pc, fault, hn, hg⟩ := x.next_spec
  exact ⟨pc, fault, by rw [hn, ← hx], hg⟩

theorem Gleaner.setG_eq (x : Gleaner) (i : Nat) (v : BitVec 64) (p : Bool) :
    x.setG i v p = { x with regs := (x.setG i v p).regs, pg := (x.setG i v p).pg } := by
  unfold Gleaner.setG; split <;> rfl

/-- After a register write the gleaner goes on: nothing but the register, the PC, a fault and the wait differs. -/
theorem Gleaner.setG_next (x : Gleaner) {i : Nat} (v : BitVec 64) (p : Bool) (hi : i < 32) :
    x.WritesG (x.setG i v p).next i v p ∧ (x.setG i v p).next.wait = .run ∧ x.GoesOn (x.setG i v p).next ∧
      x.KeepsButG { (x.setG i v p).next with wait := x.wait } := by
  have hw := x.setG_writes i v p hi
  have he := x.setG_eq i v p
  obtain ⟨pc, fault, hn, hg⟩ := (x.setG i v p).next_spec
  rw [hn]
  rw [he] at hw hg ⊢
  exact ⟨hw, rfl, hg, rfl⟩

theorem Gleaner.KeepsButG.of_wait_eq {x y : Gleaner} (h : x.KeepsButG { y with wait := x.wait }) (hw : y.wait = x.wait) :
    x.KeepsButG y := by
  rw [← hw] at h; exact h

theorem Gleaner.setG_next_run {x : Gleaner} {i : Nat} (v : BitVec 64) (p : Bool) (hi : i < 32) (hx : x.wait = .run) :
    x.WritesG (x.setG i v p).next i v p ∧ x.GoesOn (x.setG i v p).next ∧ x.KeepsButG (x.setG i v p).next := by
  obtain ⟨hw, hrun, hg, hk⟩ := x.setG_next v p hi
  exact ⟨hw, hg, hk.of_wait_eq (hrun.trans hx.symm)⟩

/-- After a wisp write the gleaner goes on: nothing but the wisp, the PC and a fault differs. -/
theorem Gleaner.setW_next_run {x : Gleaner} {i : Nat} (v : Rec128) (p : Bool) (hi : i < 4) (hx : x.wait = .run) :
    x.WritesW (x.setW i v p).next i v p ∧ x.GoesOn (x.setW i v p).next ∧ x.KeepsButW (x.setW i v p).next := by
  have hw := x.setW_writes i v p hi
  obtain ⟨pc, fault, hn, hg⟩ := Gleaner.next_spec_run (x := x.setW i v p) hx
  rw [hn]
  exact ⟨hw, hg, rfl⟩

theorem rdField_lt (w : Nat) : rdField w < 32 := by
  rw [rdField, bitsAt_eq]; exact Nat.mod_lt _ (by decide)

/-! ### The issue of the instruction at the PC (R152) -/

/-- An instruction that runs has its effect, when its own test of the word is implied by the legal form. -/
theorem State.Runs.issued {s : State} {i : Instr} {g : Fin 128} {w : Nat} {f : Form} (h : s.Runs i g w)
    (hf : instrForm i = some f) {legal : Nat → Bool} (hl : f.legal w = true → legal w = true)
    (effect : Nat → Gleaner → State → State) :
    s.issue g f.op legal effect = effect w (s.gleaner g) s := by
  obtain ⟨hi, hw, f', hf', -, ho, hlegal⟩ := h
  obtain rfl : f = f' := Option.some.inj (hf.symm.trans hf')
  exact s.issue_runs g f.op legal effect w hi hw ho (hl hlegal)

theorem State.Runs.wait {s : State} {i : Instr} {g : Fin 128} {w : Nat} (h : s.Runs i g w) : (s.gleaner g).wait = .run :=
  (s.issues_run g h.1).1

theorem State.modCore_eq (s : State) (f : HubCore → HubCore) : s.modCore f = { s with core := f s.core } := rfl

end Sys2Proof.Machine
end

section
/-!
SUPPORT. The instructions that give the output of a sheaf, and the statement on them (R127, R128, R162, R163).
-/

namespace Sys2Proof.Machine

/-! ### remit (R128, R162) -/

/-- The record that remit appends: the wisp, with POISON (bit 39) set when the wisp or the sheaf is poisoned. -/
def Gleaner.emitted (x : Gleaner) (i : Nat) : Rec128 := if x.wp i || x.sp then x.w i ||| BitVec.ofNat 128 (2 ^ 39) else x.w i

/-- The gleaner with the record of wisp i appended to its output. -/
def Gleaner.appended (x : Gleaner) (i : Nat) : Gleaner := { x with out := x.out ++ [x.emitted i] }

/-- The gleaner that has lost a record at the cap. -/
def Gleaner.capped (x : Gleaner) : Gleaner := { x with outLost := x.outLost + 1, outCap := true }

/-- A sheaf may take an output page while more than 256 are free; the next one to release may take each that is free (R128). -/
theorem State.mayTakePage_iff (s : State) (sh : Sheaf) : s.mayTakePage sh = true ↔
    s.core.usedOut < 192 ∨
      (s.core.usedOut < 448 ∧ sh.epoch.toNat * 4096 + sh.slice.toNat = s.core.nextSl % 2 ^ 44) := by
  simp only [State.mayTakePage, Sheaf.seq, seqOf, Bool.or_eq_true, Bool.and_eq_true, decide_eq_true_eq, beq_iff_eq]
  have htotal : outPagesTotal = 448 := rfl
  omega

section remit
variable {s : State} {g : Fin 128} {w : Nat} {sh : Sheaf} (hr : s.Runs (.remit g) g w) (hs : (s.gleaner g).sheaf = some sh)
include hr hs

/-- Past the cap the record is lost, and the sheaf counted at the first such record. -/
theorem exec_remit_capped (hcap : 8192 ≤ (s.gleaner g).out.length) :
    exec (.remit g) s = .next (State.setGleaner
      (s.when (!(s.gleaner g).outCap) (fun s => s.bump (figIngress 1 sh.region 2))) g
      (s.gleaner g).capped.next) := by
  refine congrArg Host.Outcome.next ((hr.issued rfl id _).trans ?_)
  simp only [hs, outCap, if_pos hcap, Gleaner.capped]

theorem exec_remit_appends (hcap : (s.gleaner g).out.length < 8192)
    (hroom : (s.gleaner g).out.length ≠ (s.gleaner g).pages * 256) :
    exec (.remit g) s = .next (s.setGleaner g ((s.gleaner g).appended (rs1Field w)).next) := by
  refine congrArg Host.Outcome.next ((hr.issued rfl id _).trans ?_)
  simp only [hs, outCap, pageRecords, if_neg (Nat.not_le.2 hcap), if_neg hroom, Gleaner.appended, Gleaner.emitted]

theorem exec_remit_takesPage (hcap : (s.gleaner g).out.length < 8192)
    (hfull : (s.gleaner g).out.length = (s.gleaner g).pages * 256) (hpage : s.mayTakePage sh = true) :
    exec (.remit g) s = .next (State.setGleaner
      { s with core := { s.core with usedOut := s.core.usedOut + 1, lowOut := min s.core.lowOut (447 - s.core.usedOut) } } g
      { (s.gleaner g).appended (rs1Field w) with pages := (s.gleaner g).pages + 1 }.next) := by
  have hlow : outPagesTotal - s.core.usedOut - 1 = 447 - s.core.usedOut := Nat.sub_right_comm ..
  refine congrArg Host.Outcome.next ((hr.issued rfl id _).trans ?_)
  simp only [hs, outCap, pageRecords, if_neg (Nat.not_le.2 hcap), if_pos hfull, if_pos hpage, State.modCore_eq, hlow,
    Gleaner.appended, Gleaner.emitted]

theorem exec_remit_waits (hcap : (s.gleaner g).out.length < 8192)
    (hfull : (s.gleaner g).out.length = (s.gleaner g).pages * 256) (hpage : s.mayTakePage sh = false) :
    exec (.remit g) s = .next s := by
  refine congrArg Host.Outcome.next ((hr.issued rfl id _).trans ?_)
  simp only [hs, outCap, pageRecords, if_neg (Nat.not_le.2 hcap), if_pos hfull, hpage, Bool.false_eq_true, if_false]

/-! The clauses of the statement on remit. -/

theorem answers_remit_capped (hcap : 8192 ≤ (s.gleaner g).out.length) :
    ∃ c y, exec (.remit g) s = .next (State.setGleaner { s with counters := c } g y) ∧
      ((s.gleaner g).outCap = true → c = s.counters) ∧
      ((s.gleaner g).outCap = false → Counted s { s with counters := c } (figIngress 1 sh.region 2) 1) ∧
      y.outLost = (s.gleaner g).outLost + 1 ∧ y.outCap = true ∧ (s.gleaner g).GoesOn y ∧
      { y with outLost := (s.gleaner g).outLost, outCap := (s.gleaner g).outCap, pc := (s.gleaner g).pc,
               fault := (s.gleaner g).fault } = s.gleaner g := by
  have he := exec_remit_capped hr hs hcap
  obtain ⟨pc, fault, hn, hg⟩ := Gleaner.next_spec_run (x := (s.gleaner g).capped) hr.wait
  rw [hn] at he
  rcases Bool.eq_false_or_eq_true (s.gleaner g).outCap with hc | hc
  · rw [hc] at he
    exact ⟨_, _, he, fun _ => rfl, fun h => absurd (hc.symm.trans h) (by decide), rfl, rfl, hg, rfl⟩
  · rw [hc] at he
    exact ⟨_, _, he, fun h => absurd (hc.symm.trans h) (by decide), fun _ => s.bump_counted _ 1, rfl, rfl, hg, rfl⟩

theorem answers_remit_appends (hcap : (s.gleaner g).out.length < 8192)
    (hroom : (s.gleaner g).out.length ≠ (s.gleaner g).pages * 256) :
    AnswersGleaner (.remit g) s g (fun x y =>
      y.out = x.out ++ [x.emitted (rs1Field w)] ∧ x.GoesOn y ∧
        { y with out := x.out, pc := x.pc, fault := x.fault } = x) := by
  refine ⟨_, exec_remit_appends hr hs hcap hroom, ?_⟩
  obtain ⟨pc, fault, hn, hg⟩ := Gleaner.next_spec_run (x := (s.gleaner g).appended (rs1Field w)) hr.wait
  rw [hn]
  exact ⟨rfl, hg, rfl⟩

theorem answers_remit_takesPage (hcap : (s.gleaner g).out.length < 8192)
    (hfull : (s.gleaner g).out.length = (s.gleaner g).pages * 256) (hpage : s.mayTakePage sh = true) :
    ∃ y, exec (.remit g) s = .next (State.setGleaner
        { s with core := { s.core with
            usedOut := s.core.usedOut + 1, lowOut := min s.core.lowOut (447 - s.core.usedOut) } } g y) ∧
      y.out = (s.gleaner g).out ++ [(s.gleaner g).emitted (rs1Field w)] ∧ y.pages = (s.gleaner g).pages + 1 ∧
      (s.gleaner g).GoesOn y ∧
      { y with out := (s.gleaner g).out, pages := (s.gleaner g).pages, pc := (s.gleaner g).pc,
               fault := (s.gleaner g).fault } = s.gleaner g := by
  refine ⟨_, exec_remit_takesPage hr hs hcap hfull hpage, ?_⟩
  obtain ⟨pc, fault, hn, hg⟩ := Gleaner.next_spec_run
    (x := { (s.gleaner g).appended (rs1Field w) with pages := (s.gleaner g).pages + 1 }) hr.wait
  rw [hn]
  exact ⟨rfl, rfl, hg, rfl⟩

end remit

/-! ### pemit and done (R127, R162, R163) -/

/-- The gleaner with its primitive appended, or counted in PDROP when the register or the sheaf is poisoned. -/
def Gleaner.emitPrim (x : Gleaner) (i : Nat) : Gleaner := { x with
  prims := if x.p i || x.sp then x.prims else x.prims ++ [x.g i]
  pdrop := if x.p i || x.sp then x.pdrop + 1 else x.pdrop }

/-- What done passes to the collector. -/
def Gleaner.doneSheaf (x : Gleaner) (sh : Sheaf) : DoneSheaf :=
  { region := sh.region, seq := sh.seq, recs := x.out, prims := x.prims, pdrop := x.pdrop, nlost := sh.nlost + x.outLost
    hold := sh.hold, forced := sh.forced || sh.cap || x.outCap, pages := sh.pages, outPages := x.pages }

/-- A gleaner that lets its sheaf go, with the idle steps before its next take. -/
def Gleaner.released (x : Gleaner) (idle : Nat) : Gleaner :=
  { x with
    sheaf := none, cursor := 0, watch := 0, out := [], prims := [], pdrop := 0, pages := 0, outLost := 0
    outCap := false, idle := idle }

section output
variable {s : State} {g : Fin 128} {w : Nat} {sh : Sheaf}

theorem exec_pemit (hr : s.Runs (.pemit g) g w) (hs : (s.gleaner g).sheaf = some sh) :
    exec (.pemit g) s = .next (s.setGleaner g ((s.gleaner g).emitPrim (rs1Field w)).next) := by
  refine congrArg Host.Outcome.next ((hr.issued rfl id _).trans ?_)
  simp only [hs, Gleaner.emitPrim]
  split <;> rfl

theorem exec_done (hr : s.Runs (.done g) g w) (hs : (s.gleaner g).sheaf = some sh) :
    exec (.done g) s = .next (State.setGleaner
      { s with core := { s.core with done := s.core.done ++ [(s.gleaner g).doneSheaf sh] } } g
      ((s.gleaner g).released (idleSteps s.thermal.level)).next) := by
  refine congrArg Host.Outcome.next ((hr.issued rfl id _).trans ?_)
  simp only [hs, State.modCore_eq, Gleaner.doneSheaf, Gleaner.released]

theorem answers_pemit (hr : s.Runs (.pemit g) g w) (hs : (s.gleaner g).sheaf = some sh) :
    AnswersGleaner (.pemit g) s g (fun x y =>
      (y.prims = if x.p (rs1Field w) || x.sp then x.prims else x.prims ++ [x.g (rs1Field w)]) ∧
      (y.pdrop = if x.p (rs1Field w) || x.sp then x.pdrop + 1 else x.pdrop) ∧ x.GoesOn y ∧
      { y with prims := x.prims, pdrop := x.pdrop, pc := x.pc, fault := x.fault } = x) := by
  refine ⟨_, exec_pemit hr hs, ?_⟩
  obtain ⟨pc, fault, hn, hg⟩ := Gleaner.next_spec_run (x := (s.gleaner g).emitPrim (rs1Field w)) hr.wait
  rw [hn]
  exact ⟨rfl, rfl, hg, rfl⟩

end output

end Sys2Proof.Machine

open Sys2Proof Sys2Proof.Machine

/-- Settles O15: remit by the cap, the last page and the free pages; pemit and done by their one case each. -/
theorem outputInstructions : Obligations.OutputInstructions := by
  unfold Obligations.OutputInstructions
  intro s g w sh x v hs
  refine ⟨fun hr => ⟨fun hcap => ?_, fun hcap hroom => ?_, fun hcap hfull hpage => ?_, fun hcap hfull h192 hpage => ?_⟩,
    fun hr => answers_pemit hr hs, fun hr => ?_⟩
  · exact answers_remit_capped hr hs hcap
  · exact answers_remit_appends hr hs hcap hroom
  · exact answers_remit_takesPage hr hs hcap hfull ((s.mayTakePage_iff sh).2 hpage)
  · refine exec_remit_waits hr hs hcap hfull (Bool.eq_false_iff.2 fun h => ?_)
    rw [s.mayTakePage_iff] at h
    omega
  · have he := exec_done hr hs
    obtain ⟨pc, fault, hn, hg⟩ := Gleaner.next_spec_run (x := x.released (idleSteps s.thermal.level)) hr.wait
    rw [hn] at he
    exact ⟨_, _, he, rfl, rfl, rfl, rfl, rfl, rfl, rfl, rfl, rfl, rfl, hg, rfl, rfl, rfl, rfl, rfl, rfl, rfl, rfl, rfl, rfl, rfl,
      rfl, rfl, rfl, rfl⟩
end

section
/-!
SUPPORT. Waits, mail and replies of a gleaner, the reloads of its reads and words, and the statement on them (R137, R166, R167,
R169).
-/

namespace Sys2Proof.Machine

/-! ### Events (R166) -/

/-- Of the events of a mask, only a waiting reply can be present without a step boundary. -/
theorem Gleaner.evBits_reply (x : Gleaner) (m : Nat) :
    x.evBits m false = if m.testBit 1 ∧ x.replies ≠ [] then 2 else 0 := by
  simp only [Gleaner.evBits, bitAt_eq, Bool.and_false, Bool.false_eq_true, if_false, Nat.zero_add, Bool.and_eq_true,
    Bool.not_eq_true', List.isEmpty_eq_false_iff]

theorem testBit_imm16 (w : Nat) : (imm16 w).testBit 1 = w.testBit 1 := by
  rw [imm16, bitsAt_eq, Nat.pow_zero, Nat.div_one, Nat.testBit_mod_two_pow]; rfl

theorem ofNat_imm16 (w : Nat) : BitVec.ofNat 2 (imm16 w) = BitVec.ofNat 2 w := by
  apply BitVec.eq_of_toNat_eq
  rw [imm16, bitsAt_eq, BitVec.toNat_ofNat, BitVec.toNat_ofNat]
  omega

/-- A mask below 4 is one whose upper 14 bits are zero. -/
theorem mask_legal {w : Nat} (h : decide (imm16 w < 4) = true) : (bitsAt w 2 14 == 0) = true := by
  rw [decide_eq_true_eq, imm16, bitsAt_eq] at h
  rw [beq_iff_eq, bitsAt_eq]
  omega

/-- At its timeout a waitev gives the events present, 0 for none. -/
theorem Gleaner.endWait_timeout {x : Gleaner} {m : BitVec 2} {rd : Nat} (hx : x.wait = .event m rd) :
    x.endWait false true = (x.setG rd (if m.getLsbD 1 ∧ x.replies ≠ [] then 2 else 0) false).next := by
  simp only [Gleaner.endWait, hx, x.evBits_reply, show m.toNat.testBit 1 = m.getLsbD 1 from rfl, if_true]
  by_cases h : m.getLsbD 1 = true ∧ x.replies ≠ []
  · rw [if_pos h, if_pos h, if_pos (show (2 : Nat) ≠ 0 by decide)]; rfl
  · simp only [if_neg h, ne_eq, not_true_eq_false, if_false]

section waits
variable {s : State} {g : Fin 128} {w : Nat}

/-- waitev goes on with the events present, or waits. -/
theorem exec_waitev (hr : s.Runs (.waitev g) g w) :
    let b := if w.testBit 1 ∧ (s.gleaner g).replies ≠ [] then 2 else 0
    exec (.waitev g) s = .next (if (s.gleaner g).g (rs1Field w) = 0 ∨ b ≠ 0
      then s.setGleaner g ((s.gleaner g).setG (rdField w) (BitVec.ofNat 64 b) false).next
      else s.setGleaner g { s.gleaner g with wait := .event (BitVec.ofNat 2 w) (rdField w) }) := by
  refine congrArg Host.Outcome.next ((hr.issued rfl mask_legal _).trans ?_)
  simp only [Gleaner.evBits_reply, testBit_imm16, ofNat_imm16]

theorem answers_waitevTimeout {m : BitVec 2} {rd : Nat} (hrd : rd < 32) (ha : s.awake = true) (hu : s.gleanerUp g = true)
    (hx : (s.gleaner g).wait = .event m rd) :
    AnswersGleaner (.waitevTimeout g) s g (fun x y =>
      x.WritesG y rd (if m.getLsbD 1 ∧ x.replies ≠ [] then 2 else 0) false ∧ y.wait = .run ∧ x.GoesOn y ∧
      x.KeepsButG { y with wait := x.wait }) := by
  refine ⟨_, ?_, (s.gleaner g).setG_next _ false hrd⟩
  simp only [exec, execWaitevTimeout, ha, hu, Bool.and_self, State.when_true, State.modGleaner_eq, Gleaner.endWait_timeout hx]

/-! ### Mail and replies (R167) -/

theorem Gleaner.KeepsButG.replies_eq {x y : Gleaner} (h : x.KeepsButG y) : y.replies = x.replies := by
  unfold Gleaner.KeepsButG at h
  rw [← h]

/-- What keeps everything but general registers after the replies changed, keeps everything but those two. -/
theorem Gleaner.KeepsButG.of_replies {x y : Gleaner} {l : List (BitVec 64)}
    (h : Gleaner.KeepsButG { x with replies := l } y) : x.KeepsButG { y with replies := x.replies } := by
  unfold Gleaner.KeepsButG at *
  exact congrArg (fun z : Gleaner => { z with replies := x.replies }) h

theorem exec_mail_waits (hr : s.Runs (.mail g) g w) (hfull : 64 ≤ s.core.mailbox.length) :
    exec (.mail g) s = .next s :=
  congrArg Host.Outcome.next ((hr.issued rfl id _).trans (if_pos hfull))

/-- The message of a mail instruction: the number of the sheaf held, or 0, and the two registers with their poison. -/
def Gleaner.message (x : Gleaner) (g w : Nat) : Mail :=
  { gleaner := g, seq := (x.sheaf.map Sheaf.seq).getD 0, lo := x.g (rs1Field w), hi := x.g (rs2Field w)
    poison := x.p (rs1Field w) || x.p (rs2Field w) || x.sp }

theorem exec_mail_sends (hr : s.Runs (.mail g) g w) (hroom : s.core.mailbox.length < 64) :
    exec (.mail g) s = .next (State.setGleaner
      { s with core := { s.core with mailbox := s.core.mailbox ++ [(s.gleaner g).message g w] } } g (s.gleaner g).next) :=
  congrArg Host.Outcome.next ((hr.issued rfl id _).trans (if_neg (Nat.not_le.2 hroom)))

theorem exec_mrecv_waits (hr : s.Runs (.mrecv g) g w) (he : (s.gleaner g).replies = []) :
    exec (.mrecv g) s = .next s := by
  refine congrArg Host.Outcome.next ((hr.issued rfl id _).trans ?_)
  simp only [he]

theorem answers_mrecv (hr : s.Runs (.mrecv g) g w) {r : BitVec 64} {rest : List (BitVec 64)}
    (he : (s.gleaner g).replies = r :: rest) :
    AnswersGleaner (.mrecv g) s g (fun x y =>
      x.WritesG y (rdField w) r false ∧ y.replies = rest ∧ x.GoesOn y ∧ x.KeepsButG { y with replies := x.replies }) := by
  refine ⟨({ s.gleaner g with replies := rest }.setG (rdField w) r false).next, ?_, ?_⟩
  · refine congrArg Host.Outcome.next ((hr.issued rfl id _).trans ?_)
    simp only [he]
  · obtain ⟨hw, hg, hk⟩ := Gleaner.setG_next_run (x := { s.gleaner g with replies := rest }) r false (rdField_lt w) hr.wait
    exact ⟨hw, hk.replies_eq, hg, hk.of_replies⟩

end waits

/-! ### Reloads (R137, R169, R213) -/

/-- A local error changes counters and the record of local errors alone. -/
theorem State.localErr_eq (s : State) (h : Hub) (e : LocalErr) :
    s.localErr h e = { s with counters := (s.localErr h e).counters, red := (s.localErr h e).red } := by
  cases h <;> rfl

/-- A reload that completes poisoned changes counters and the record of local errors. -/
theorem State.reloadFails_eq (s : State) :
    s.reloadFails = { s with counters := s.reloadFails.counters, red := s.reloadFails.red } :=
  (s.bump (figMem s.red.active 4)).localErr_eq s.red.active .tspoison

theorem State.reloadFails_gleaner (s : State) (g : Nat) : s.reloadFails.gleaner g = s.gleaner g := by rw [s.reloadFails_eq]; rfl

theorem State.reloadFails_codeWord (s : State) (pc : BitVec 17) : s.reloadFails.codeWord pc = s.codeWord pc := by
  rw [s.reloadFails_eq]; rfl

theorem State.reloadFails_free (s : State) : s.reloadFails.free = s.free := by rw [s.reloadFails_eq]

theorem State.reloadFails_counted (s : State) : Counted s s.reloadFails (figMem s.red.active 4) 1 :=
  (s.bump_counted (figMem s.red.active 4) 1).of_count_eq
    (State.count_localErr _ _ _ _ (by cases s.red.active <;> decide))

theorem State.reloadFails_errs (s : State) :
    (s.reloadFails.hubRed s.red.active).errs = (s.hubRed s.red.active).errs ++ [(.tspoison, s.clock.step)] := by
  rw [State.reloadFails, State.localErr_errs, if_pos rfl]
  cases s.red.active <;> rfl

/-- The answer of a reload of gleaner g that completes poisoned after n free values: it is counted, and a local error. -/
def State.FailsReload (s : State) (g : Fin 128) (n : Nat) (P : Gleaner → Prop) : Prop :=
  ∃ c r y, exec (.tableReloadDone g) s = .next (State.setGleaner { s with counters := c, red := r, free := s.free + n } g y) ∧
    P y ∧ Counted s { s with counters := c } (figMem s.red.active 4) 1 ∧
    (State.hubRed { s with red := r } s.red.active).errs = (s.hubRed s.red.active).errs ++ [(.tspoison, s.clock.step)]

theorem State.failsReload_of_exec {s : State} {g : Fin 128} {n : Nat} {y : Gleaner} {P : Gleaner → Prop}
    (he : exec (.tableReloadDone g) s = .next (State.setGleaner { s.reloadFails with free := s.free + n } g y)) (hP : P y) :
    s.FailsReload g n P := by
  rw [s.reloadFails_eq] at he
  exact ⟨_, _, y, he, hP, s.reloadFails_counted, s.reloadFails_errs⟩

/-- The node may complete a reload of gleaner g. -/
structure State.MayReload (s : State) (g : Nat) : Prop where
  awake : s.awake = true
  loaded : s.loaded = true
  up : s.gleanerUp g = true
  noFault : (s.gleaner g).fault = none

/-- A read of a wisp whose reload is poisoned gives a free poisoned value (R137). -/
theorem State.finishReload_wisp {s : State} {g : Nat}
    (hop : opField (s.codeWord (s.gleaner g).pc) = 0x24 ∨ opField (s.codeWord (s.gleaner g).pc) = 0x36) :
    s.finishReload g false = State.setGleaner { s with free := s.free + 1 } g
      (Gleaner.setW { s.gleaner g with wait := .run } (rdField (s.codeWord (s.gleaner g).pc))
        (BitVec.ofNat 128 (Config.freeNat s.free)) true).next := by
  rcases hop with hop | hop <;> simp only [State.finishReload, Bool.false_eq_true, if_false, hop, State.takeFree]

/-- Every other read gives its register a free poisoned value. -/
theorem State.finishReload_register {s : State} {g : Nat}
    (h24 : opField (s.codeWord (s.gleaner g).pc) ≠ 0x24) (h36 : opField (s.codeWord (s.gleaner g).pc) ≠ 0x36) :
    s.finishReload g false = State.setGleaner { s with free := s.free + 1 } g
      (Gleaner.setG { s.gleaner g with wait := .run } (rdField (s.codeWord (s.gleaner g).pc))
        (BitVec.ofNat 64 (Config.freeNat s.free)) true).next := by
  unfold State.finishReload
  dsimp only
  rw [if_neg Bool.false_ne_true]
  split
  · next h => exact absurd h h24
  · next h => exact absurd h h36
  · rfl

section reloads
variable {s : State} {g : Fin 128} (hm : s.MayReload g)
include hm

/-- What a reload does where it may complete. -/
theorem exec_tableReloadDone : exec (.tableReloadDone g) s = .next
    (if (s.gleaner g).wait = .reload then
      (s.when (s.reloadPoisoned g) State.reloadFails).finishReload g (!s.reloadPoisoned g)
    else if s.reloadPoisoned g = true then s.reloadFails.setGleaner g ((s.gleaner g).trap 6) else s) := by
  obtain ⟨ha, hl, hu, hf⟩ := hm
  simp only [exec, execTableReloadDone, State.tableReloadDone, ha, hl, hu, hf, Option.isNone_none, Bool.and_self, State.when_true]
  cases s.reloadPoisoned g <;> rfl

theorem exec_reload_good (hx : (s.gleaner g).wait = .reload) (hp : s.reloadPoisoned g = false) :
    exec (.tableReloadDone g) s = .next (s.finishReload g true) := by
  rw [exec_tableReloadDone hm, if_pos hx, hp]; rfl

theorem exec_reload_poisoned (hx : (s.gleaner g).wait = .reload) (hp : s.reloadPoisoned g = true) :
    exec (.tableReloadDone g) s = .next (s.reloadFails.finishReload g false) := by
  rw [exec_tableReloadDone hm, if_pos hx, hp]; rfl

theorem failsReload_register (hx : (s.gleaner g).wait = .reload) (hp : s.reloadPoisoned g = true)
    (h24 : opField (s.codeWord (s.gleaner g).pc) ≠ 0x24) (h36 : opField (s.codeWord (s.gleaner g).pc) ≠ 0x36) :
    ∃ v, s.FailsReload g 1 (fun y =>
      Gleaner.WritesG { s.gleaner g with wait := .run } y (rdField (s.codeWord (s.gleaner g).pc)) v true ∧
      Gleaner.GoesOn { s.gleaner g with wait := .run } y ∧ Gleaner.KeepsButG { s.gleaner g with wait := .run } y) := by
  have he := exec_reload_poisoned hm hx hp
  rw [← s.reloadFails_codeWord, ← s.reloadFails_gleaner] at h24 h36
  rw [State.finishReload_register h24 h36, s.reloadFails_gleaner, s.reloadFails_codeWord, s.reloadFails_free] at he
  exact ⟨_, State.failsReload_of_exec he (Gleaner.setG_next_run _ true (rdField_lt _) rfl)⟩

theorem failsReload_wisp (hx : (s.gleaner g).wait = .reload) (hp : s.reloadPoisoned g = true)
    (hop : opField (s.codeWord (s.gleaner g).pc) = 0x24 ∨ opField (s.codeWord (s.gleaner g).pc) = 0x36)
    (hrd : rdField (s.codeWord (s.gleaner g).pc) < 4) :
    ∃ v, s.FailsReload g 1 (fun y =>
      Gleaner.WritesW { s.gleaner g with wait := .run } y (rdField (s.codeWord (s.gleaner g).pc)) v true ∧
      Gleaner.GoesOn { s.gleaner g with wait := .run } y ∧ Gleaner.KeepsButW { s.gleaner g with wait := .run } y) := by
  have he := exec_reload_poisoned hm hx hp
  rw [← s.reloadFails_codeWord, ← s.reloadFails_gleaner] at hop
  rw [State.finishReload_wisp hop, s.reloadFails_gleaner, s.reloadFails_codeWord, s.reloadFails_free] at he
  exact ⟨_, State.failsReload_of_exec he (Gleaner.setW_next_run _ true hrd rfl)⟩

theorem failsReload_fetch (hx : (s.gleaner g).wait ≠ .reload) (hp : s.reloadPoisoned g = true) :
    s.FailsReload g 0 (fun y => y = { s.gleaner g with fault := some (6, (s.gleaner g).pc) }) := by
  refine State.failsReload_of_exec (y := (s.gleaner g).trap 6) ?_ rfl
  rw [exec_tableReloadDone hm, if_neg hx, if_pos hp, s.reloadFails_eq]; rfl

end reloads

end Sys2Proof.Machine

open Sys2Proof Sys2Proof.Machine

/-- Settles O16: each clause is one case of the wait, of the mailbox, of the replies or of the reload. -/
theorem waitsMailAndReloads : Obligations.WaitsMailAndReloads := by
  unfold Obligations.WaitsMailAndReloads
  refine ⟨fun s g w => ⟨fun hr => ⟨fun hb => ?_, fun h0 hb => ?_⟩, fun m rd hrd ha hu hx => ?_,
      fun hr => ⟨fun hfull => ?_, fun hroom => ?_⟩,
      fun hr => ⟨fun he => exec_mrecv_waits hr he, fun r rest he => answers_mrecv hr he⟩⟩,
    fun s g ha hl hu hf => ⟨fun hx => ⟨fun hp => ?_, fun hp hop => ?_, fun hp hop => ?_⟩,
      fun hx => ⟨fun hp => ?_, fun hp => failsReload_fetch ⟨ha, hl, hu, hf⟩ hx hp⟩⟩⟩
  · exact ⟨_, (exec_waitev hr).trans (by rw [if_pos hb]), Gleaner.setG_next_run _ false (rdField_lt w) hr.wait⟩
  · exact (exec_waitev hr).trans (by rw [if_neg (fun h => h.elim h0 (absurd hb))])
  · exact answers_waitevTimeout hrd ha hu hx
  · exact exec_mail_waits hr hfull
  · obtain ⟨pc, fault, hn, hg⟩ := Gleaner.next_spec_run hr.wait
    have he := exec_mail_sends hr hroom
    rw [hn] at he
    exact ⟨_, _, he, rfl, rfl, rfl, fun sh hs => by simp only [Gleaner.message, hs]; rfl, rfl, hg, rfl⟩
  · have hgood := exec_reload_good ⟨ha, hl, hu, hf⟩ hx hp
    refine ⟨?_, ?_, ?_, ?_, ?_⟩ <;>
      exact fun hop => hgood.trans (congrArg Host.Outcome.next (by simp only [State.finishReload, if_true, hop]))
  · exact failsReload_register ⟨ha, hl, hu, hf⟩ hx hp (by omega) (by omega)
  · exact failsReload_wisp ⟨ha, hl, hu, hf⟩ hx hp hop.1 hop.2
  · rw [exec_tableReloadDone ⟨ha, hl, hu, hf⟩, if_neg hx, hp]; rfl
end
